-- ==== Sys2Proof/Word.lean ====
section
/-! DEFINITION. The plain value types of the QCMP codec block: words, bytes, binary64 patterns,
complex values and complex matrices (spec 00_scope.md R8, R10, R11). -/

namespace Sys2Proof

/-- A 32-bit register word (10_state.md R21). -/
abbrev Word := BitVec 32

/-- One byte of BUF (20_memory.md R70). -/
abbrev Byte := BitVec 8

/-- The 64-bit pattern of a binary64 value (00_scope.md R10). -/
abbrev F64 := BitVec 64

/-- The four binary64 operations of 00_scope.md R10, as names: a NaN result's pattern, which
IEEE 754 leaves open, may depend on the operation. -/
inductive FloatOp where
  | add | sub | mul | div
deriving DecidableEq, Repr

/-- A complex binary64 value `(re, im)` (00_scope.md R10). -/
structure C64 where
  re : F64
  im : F64
deriving DecidableEq, Repr, Inhabited

/-- A complex matrix as its row-major listing: entry `(i, j)` is at position `i * cols + j`
(00_scope.md R11, 42_tensor_train.md R151). -/
structure CMat where
  rows : Nat
  cols : Nat
  entries : List C64
deriving DecidableEq, Repr, Inhabited

end Sys2Proof
end

