-- ==== Sys2Proof/Config.lean ====
section
/-! DEFINITION. What an implementation fixes (00_scope.md R6) and the free values the spec leaves
unspecified (93_implementation_defined.md U1 to U8). Every open value is an opaque constant with no
body: no proof can see it, so a theorem holds whatever it is. -/

namespace Sys2Proof.Config

/-- `PHYS_DIM` (00_scope.md R6). -/
def physDim : Nat := 256

/-- `MAX_CODE_LEN`, the width of a CODE entry (00_scope.md R6, 10_state.md R40). -/
def maxCodeLen : Nat := 255

/-- `TABLE_BYTES` (00_scope.md R6). -/
def tableBytes : Nat := 256

/-- `CONTAINER_VERSION` (00_scope.md R6). -/
def containerVersion : Byte := 0x01#8

/-- `MAGIC`, the bytes of "QCMP" (00_scope.md R6). -/
def magic : List Byte := [0x51#8, 0x43#8, 0x4D#8, 0x50#8]

/-- ID reads this word always (10_state.md R24). -/
def idWord : Word := 0x504D4351#32

/-- VERSION reads this word always (10_state.md R25). -/
def versionWord : Word := 0x00000101#32

/-- MAX_RANK after reset (00_scope.md R6). -/
def maxRankReset : Word := 64#32

/-- Which of the twenty legal sizes BUF has; see `bufBytes`. OPEN (U7, assumption 1). -/
opaque bufSizeChoice : Fin 20

/-- `BUF_BYTES`: a power of two with 2^12 ≤ BUF_BYTES ≤ 2^31 (00_scope.md R6); every such power
is one value of `bufSizeChoice` and nothing else is. -/
def bufBytes : Nat := 2 ^ (12 + bufSizeChoice.val)

/-- How far WORK_ELEMS lies above its least value; see `workElems`. OPEN (U8, assumption 1). -/
opaque workElemsExtra : Nat

/-- `WORK_ELEMS`, at least 65536 (00_scope.md R6). -/
def workElems : Nat := 65536 + workElemsExtra

/-- The unspecified values of 93_implementation_defined.md U1 to U5: `draw w n i` is the `w`-bit
value that draw number `n` gives its item `i` (a byte address, a table index). The machine uses each
draw number once (`State.draws`), so two draws are never known equal. Assumption 5. -/
opaque draw (w n i : Nat) : BitVec w

/-- Sign and fraction of the NaN an operation returns, which IEEE 754 leaves open (00_scope.md R10
names only the operations). A function of the operation and its operands, as 42_tensor_train.md R171
needs. Assumption 8. -/
opaque nanPattern (op : FloatOp) (a b : F64) : BitVec 53

/-- The parameter SVD (42_tensor_train.md R158), raw: entries of U. Assumption 9. -/
opaque svdLeft (m : CMat) (i j : Nat) : C64

/-- The parameter SVD, raw: the singular values before `Machine.singularValues` holds them to the
contract of R158. Assumption 9. -/
opaque svdSigma (m : CMat) (j : Nat) : F64

/-- The parameter SVD, raw: entries of Vh. Assumption 9. -/
opaque svdRight (m : CMat) (i j : Nat) : C64

end Sys2Proof.Config
end

