-- ==== Sys2Proof/Machine/Float64.lean ====
section
/-! DEFINITION. The binary64 operations of 00_scope.md R10: exact arithmetic on integers, rounded once
to nearest, ties to even, with no fused multiply-add. All magnitudes are counted in units of 2^-1074,
the least positive binary64 value, so every finite value is an integer number of units. -/

namespace Sys2Proof.Machine.F64

/-- The sign bit. -/
def sign (x : F64) : Bool := x.getLsbD 63

/-- The biased exponent field. -/
def expField (x : F64) : Nat := (x.extractLsb' 52 11).toNat

/-- The fraction field. -/
def fracField (x : F64) : Nat := (x.extractLsb' 0 52).toNat

def isNaN (x : F64) : Bool := expField x == 2047 && fracField x != 0

def isInf (x : F64) : Bool := expField x == 2047 && fracField x == 0

def isZero (x : F64) : Bool := expField x == 0 && fracField x == 0

/-- The pattern of +infinity, and the bound of every magnitude that is not a NaN's. -/
def infMag : Nat := 2047 * 2 ^ 52

/-- One, in units of 2^-1074. -/
def unitsPerOne : Nat := 2 ^ 1074

/-- The magnitude of a finite value, in units of 2^-1074. -/
def units (x : F64) : Nat :=
  if expField x = 0 then fracField x else (2 ^ 52 + fracField x) * 2 ^ (expField x - 1)

/-- The pattern with the given sign and magnitude bits 62:0. -/
def pack (neg : Bool) (mag : Nat) : F64 :=
  BitVec.ofNat 64 ((if neg then 2 ^ 63 else 0) + mag)

/-- The magnitude bits of `num / den` units, rounded to nearest with ties to even; a result past the
largest finite value is infinity (00_scope.md R10). With `e` the number of bits the quotient has
beyond 53, the kept significand is the quotient by `den * 2^e`; adding it to `e * 2^52` gives the
exponent and fraction fields together, for subnormal values and for a carry out of rounding too. -/
def roundMag (num den : Nat) : Nat :=
  let e := (num / den).log2 - 52
  let d := den * 2 ^ e
  let q := num / d
  let r := num % d
  let up := decide (d < 2 * r) || (decide (2 * r = d) && decide (q % 2 = 1))
  min (e * 2 ^ 52 + (if up then q + 1 else q)) infMag

/-- The NaN an operation returns: which NaN is free (assumption 8). -/
def nan (op : FloatOp) (a b : F64) : F64 :=
  let p := Config.nanPattern op a b
  let frac := p.toNat % 2 ^ 52
  pack (p.getLsbD 52) (infMag + (if frac = 0 then 2 ^ 51 else frac))

/-- The magnitude of a finite value with its sign. -/
def signedUnits (x : F64) : Int := if sign x then -(units x : Int) else units x

/-- The sign of an exact sum of zero: negative only when both operands are (IEEE 754 6.3). -/
def sumSign (a b : F64) (n : Int) : Bool := if n = 0 then sign a && sign b else decide (n < 0)

/-- The sum of `a` and `b`, where `op` and `b0` name the operation asked for. -/
def addAs (op : FloatOp) (a b b0 : F64) : F64 :=
  if isNaN a || isNaN b then nan op a b0
  else if isInf a then
    if isInf b && (sign a != sign b) then nan op a b0 else a
  else if isInf b then b
  else
    let n := signedUnits a + signedUnits b
    pack (sumSign a b n) (roundMag n.natAbs 1)

/-- The value with its sign bit changed. -/
def neg (x : F64) : F64 := x ^^^ BitVec.ofNat 64 (2 ^ 63)

/-- `f64_add` (00_scope.md R10). -/
def add (a b : F64) : F64 := addAs .add a b b

/-- `f64_sub` (00_scope.md R10). -/
def sub (a b : F64) : F64 := if isNaN b then nan .sub a b else addAs .sub a (neg b) b

/-- `f64_mul` (00_scope.md R10). -/
def mul (a b : F64) : F64 :=
  let s := sign a != sign b
  if isNaN a || isNaN b then nan .mul a b
  else if isInf a || isInf b then
    if isZero a || isZero b then nan .mul a b else pack s infMag
  else pack s (roundMag (units a * units b) unitsPerOne)

/-- `f64_div` (00_scope.md R10). -/
def div (a b : F64) : F64 :=
  let s := sign a != sign b
  if isNaN a || isNaN b then nan .div a b
  else if isInf a then if isInf b then nan .div a b else pack s infMag
  else if isInf b then pack s 0
  else if isZero b then if isZero a then nan .div a b else pack s infMag
  else pack s (roundMag (units a * unitsPerOne) (units b))

/-- The binary64 value of a natural number, rounded (exact for every byte, 41_amplitude.md R140). -/
def ofNat (n : Nat) : F64 := pack false (roundMag (n * unitsPerOne) 1)

/-- The constant 255.0 of 41_amplitude.md R140 and R141. -/
def c255 : F64 := 0x406FE00000000000#64

/-- The order of values that are not NaN: magnitude bits with the sign, so that both zeros are 0 and
the infinities lie outermost. -/
def key (x : F64) : Int :=
  let mag : Nat := x.toNat % 2 ^ 63
  if sign x then -(mag : Int) else mag

/-- `a > b`, false when either is NaN (42_tensor_train.md R157). -/
def gt (a b : F64) : Bool := !isNaN a && !isNaN b && decide (key b < key a)

/-- `round_half_away` of a finite value: the nearest integer, ties away from zero (00_scope.md R9,
41_amplitude.md R141). -/
def roundHalfAway (x : F64) : Int :=
  let m : Nat := (2 * units x + unitsPerOne) / (2 * unitsPerOne)
  if sign x then -(m : Int) else m

end Sys2Proof.Machine.F64

namespace Sys2Proof.Machine

/-- The complex zero `(+0.0, +0.0)`. -/
def czero : C64 := ⟨0, 0⟩

/-- `cmul` (00_scope.md R10). -/
def cmul (x y : C64) : C64 :=
  ⟨F64.sub (F64.mul x.re y.re) (F64.mul x.im y.im),
   F64.add (F64.mul x.re y.im) (F64.mul x.im y.re)⟩

/-- `cadd` (00_scope.md R10). -/
def cadd (x y : C64) : C64 := ⟨F64.add x.re y.re, F64.add x.im y.im⟩

/-- `rscale` (00_scope.md R10). -/
def rscale (s : F64) (x : C64) : C64 := ⟨F64.mul s x.re, F64.mul s x.im⟩

end Sys2Proof.Machine
end

