-- ==== Sys2Proof/Syntax.lean ====
section
/-! DEFINITION. The command set: one constructor per row of the opcode table (30_encoding.md R102).
No command word carries an operand (R101): every operand is read from registers (R104). -/

namespace Sys2Proof

/-- The 15 commands of 30_encoding.md R102, in its order. -/
inductive Instr where
  /-- 0x00 NOP (40_control.md R130). -/
  | nop
  /-- 0x01 AMP_MAP (41_amplitude.md R142). -/
  | ampMap
  /-- 0x02 AMP_UNMAP (41_amplitude.md R143). -/
  | ampUnmap
  /-- 0x03 DECOMPOSE (42_tensor_train.md R160). -/
  | decompose
  /-- 0x04 CHAIN_CHECK (42_tensor_train.md R166). -/
  | chainCheck
  /-- 0x05 RECONSTRUCT (42_tensor_train.md R168). -/
  | reconstruct
  /-- 0x06 HIST_CLEAR (43_huffman.md R190). -/
  | histClear
  /-- 0x07 HIST_ACCUM (43_huffman.md R191). -/
  | histAccum
  /-- 0x08 BUILD_TABLE (43_huffman.md R192). -/
  | buildTable
  /-- 0x09 TABLE_STORE (43_huffman.md R195). -/
  | tableStore
  /-- 0x0A TABLE_LOAD (43_huffman.md R196). -/
  | tableLoad
  /-- 0x0B ENCODE (43_huffman.md R205). -/
  | encode
  /-- 0x0C DECODE (43_huffman.md R210). -/
  | decode
  /-- 0x0D HDR_PACK (44_container.md R240). -/
  | hdrPack
  /-- 0x0E HDR_PARSE (44_container.md R241). -/
  | hdrParse
deriving DecidableEq, Repr

end Sys2Proof
end

