-- ==== Sys2Proof/WellFormed.lean ====
section
/-! DEFINITION. Which command words are legal (30_encoding.md R101, R103, R108). An `Instr` has no
operand, so no `Instr` is ill formed by itself: what can be ill formed is the CMD32 word that names
it, and its two checks are the two of R103. -/

namespace Sys2Proof

/-- The two fields of the one command format CMD32 (30_encoding.md R101). -/
structure CmdWord where
  op : BitVec 8
  rsvd : BitVec 24
deriving DecidableEq, Repr

/-- First check of R103: OP is one of the assigned opcodes 0x00 to 0x0E. -/
def CmdWord.opcodeAssigned (c : CmdWord) : Bool := c.op.toNat < 0x0F

/-- Second check of R103: RSVD is 0. -/
def CmdWord.reservedClear (c : CmdWord) : Bool := c.rsvd == 0#24

/-- A legal command word (30_encoding.md R103, R108). -/
def CmdWord.wellFormed (c : CmdWord) : Bool := c.opcodeAssigned && c.reservedClear

end Sys2Proof
end

