-- ==== Sys2Proof/Decode.lean ====
section
/-! DEFINITION. The fields and the opcodes of command words, decoding, total on all 2^32 words and
rejecting by name, and the encoder (30_encoding.md R101 to R103, opcode_table.json). -/

namespace Sys2Proof

/-- Why a command word is illegal (30_encoding.md R103). -/
inductive Illegal where
  /-- OP in 0x0F..0xFF. -/
  | badOpcode
  /-- OP assigned, RSVD not 0. -/
  | reservedBits
deriving DecidableEq, Repr

/-- The fields of a 32-bit command word (30_encoding.md R101). -/
def CmdWord.ofWord (w : Word) : CmdWord := ⟨w.extractLsb' 0 8, w.extractLsb' 8 24⟩

/-- The OP number of each command (30_encoding.md R102). -/
def Instr.opcode : Instr → Byte
  | .nop => 0x00#8
  | .ampMap => 0x01#8
  | .ampUnmap => 0x02#8
  | .decompose => 0x03#8
  | .chainCheck => 0x04#8
  | .reconstruct => 0x05#8
  | .histClear => 0x06#8
  | .histAccum => 0x07#8
  | .buildTable => 0x08#8
  | .tableStore => 0x09#8
  | .tableLoad => 0x0A#8
  | .encode => 0x0B#8
  | .decode => 0x0C#8
  | .hdrPack => 0x0D#8
  | .hdrParse => 0x0E#8

/-- The CMD32 fields that name an instruction. -/
def CmdWord.ofInstr (i : Instr) : CmdWord := ⟨i.opcode, 0#24⟩

/-- An instruction is well formed when the command word that names it is legal. -/
def Instr.wellFormed (i : Instr) : Bool := (CmdWord.ofInstr i).wellFormed

/-- The command an opcode names (30_encoding.md R102); reserved opcodes name none (R108). -/
def instrOfOpcode (op : Byte) : Option Instr :=
  match op.toNat with
  | 0x00 => some .nop
  | 0x01 => some .ampMap
  | 0x02 => some .ampUnmap
  | 0x03 => some .decompose
  | 0x04 => some .chainCheck
  | 0x05 => some .reconstruct
  | 0x06 => some .histClear
  | 0x07 => some .histAccum
  | 0x08 => some .buildTable
  | 0x09 => some .tableStore
  | 0x0A => some .tableLoad
  | 0x0B => some .encode
  | 0x0C => some .decode
  | 0x0D => some .hdrPack
  | 0x0E => some .hdrParse
  | _ => none

/-- The command a word names, or why it is illegal: a reserved opcode is reported before reserved
bits (30_encoding.md R103). -/
def decodeWord (w : Word) : Except Illegal Instr :=
  let c := CmdWord.ofWord w
  match instrOfOpcode c.op with
  | none => .error .badOpcode
  | some i => if c.reservedClear then .ok i else .error .reservedBits

/-- The command word of an instruction: OP in bits 7:0, bits 31:8 zero (30_encoding.md R101). -/
def encodeWord (i : Instr) : Word := i.opcode.setWidth 32

/-- The host's question: the instruction the decoder reads from the low `nbits` bits of `w`. A
command word is one 32-bit value written to CMD (30_encoding.md R101), so a value of more than 32
bits is no command word. -/
def decodeTableWord (nbits w : Nat) : Option Instr :=
  let v := w % 2 ^ nbits
  if v < 2 ^ 32 then (decodeWord (BitVec.ofNat 32 v)).toOption else none

end Sys2Proof
end

