-- ==== Sys2Proof/Machine/State.lean ====
section
/-! DEFINITION. The state of the block as plain data (10_state.md R20), the reasons a command
fails, and the state after reset (10_state.md R59, 70_reset_and_hazards.md R280). -/

namespace Sys2Proof.Machine

/-- The values of STATUS.ERR_CODE (60_exceptions.md R250); codes 6 to 15 are never written (U14). -/
inductive ErrCode where
  | none | illegalCmd | badRange | tensorDecomposition | huffmanEncoding | decompressionFailed
deriving DecidableEq, Repr

/-- The values of STATUS.ERR_DETAIL (60_exceptions.md R251); no other value is ever written. -/
inductive ErrDetail where
  | none | badOpcode | reservedBits
  | srcRange | dstRange | overlap | outCap | lenAlign
  | rankZero | emptyInput | workLimit
  | noTable | symbolUncoded | freqOverflow
  | hdrTruncated | badMagic | badVersion | tableTruncated | tableLength | tableOversub
  | payloadTruncated | bitsExhausted | noCode
  | chainTruncated | chainShape | physDim | origLen
deriving DecidableEq, Repr

/-- The engine is Idle, or Busy with the issued word (10_state.md R52). -/
inductive Engine where
  | idle
  | busy (word : Word)
deriving DecidableEq, Repr

/-- The widths of a buffer-port access, 1, 2, 4 or 8 bytes (20_memory.md R76). -/
inductive Width where
  | b1 | b2 | b4 | b8
deriving DecidableEq, Repr

/-- One host transaction on the register port or the buffer port (20_memory.md R75, R76). -/
inductive HostTxn where
  | regRead (off : BitVec 8)
  | regWrite (off : BitVec 8) (v : Word)
  | bufRead (a : Word) (n : Width)
  /-- R76 has an `n`-byte `v`; the model holds 64 bits at every width (assumption 24). -/
  | bufWrite (a : Word) (n : Width) (v : BitVec 64)
deriving DecidableEq, Repr

/-- Whose move comes next. The spec leaves the interleaving of host transactions, completions and
platform resets open (60_exceptions.md R254, R257); State holds it as a list, so a claim about every
list is a claim about every interleaving (assumption 2). -/
inductive Turn where
  /-- The host performs one transaction. -/
  | host (t : HostTxn)
  /-- The engine takes its completion step if it is Busy. -/
  | engine
  /-- The platform asserts and releases reset (70_reset_and_hazards.md R280). -/
  | reset
  /-- The host's WAIT: poll STATUS until BUSY is 0 (30_encoding.md R111). -/
  | wait
  /-- The host's CHECK: read STATUS and stop its program if ERR is 1 (30_encoding.md R111). -/
  | check
deriving DecidableEq, Repr

/-- BUF as the bytes something has written, in canonical form; see `Memory.wf`. -/
abbrev Memory := List Host.Cell

/-- The canonical form: addresses strictly rising. An address that is not listed has no byte of its
own (it reads as its reset draw, `State.readByte`), so no entry can repeat what an unlisted address
holds. Assumption 4. -/
abbrev Memory.wf (m : Memory) : Prop := (m.map Prod.fst).Pairwise (· < ·)

/-- A table with one entry per symbol 0..255 (10_state.md R40). -/
abbrev Table (α : Type) := Vector α 256

/-- The whole state of the block (10_state.md R20). STATUS, IRQ_EN, TSEL and the read-only
registers are views of these fields, computed in Flags.lean and Ports.lean: STATUS.BUSY is
`engine`, STATUS.ERR is `errCode ≠ none`, `irq` is `done ∧ doneIE`. -/
structure State where
  /-- CMD (R27). -/
  cmd : Word
  /-- STATUS.DONE (R30). -/
  done : Bool
  /-- STATUS.TABLE_VALID (R32). -/
  tableValid : Bool
  /-- STATUS.OVERRUN (R33). -/
  overrun : Bool
  /-- STATUS.HOST_CONFLICT (R34). -/
  hostConflict : Bool
  /-- STATUS.ERR_CODE (R31). -/
  errCode : ErrCode
  /-- STATUS.ERR_DETAIL (R31). -/
  errDetail : ErrDetail
  /-- STATUS.LAST_OP (R35). -/
  lastOp : BitVec 8
  /-- IRQ_EN.DONE_IE (R37). -/
  doneIE : Bool
  /-- SRC_ADDR (R38). -/
  srcAddr : Word
  /-- SRC_LEN (R38). -/
  srcLen : Word
  /-- DST_ADDR (R38). -/
  dstAddr : Word
  /-- DST_CAP (R38). -/
  dstCap : Word
  /-- MAX_RANK (R39). -/
  maxRank : Word
  /-- EPS_LO (R41). -/
  epsLo : Word
  /-- EPS_HI (R41). -/
  epsHi : Word
  /-- ORIG_LEN_LO (R42). -/
  origLenLo : Word
  /-- ORIG_LEN_HI (R42). -/
  origLenHi : Word
  /-- RESULT_LEN (R43). -/
  resultLen : Word
  /-- CONSUMED (R43). -/
  consumed : Word
  /-- AUX0 (R43). -/
  aux0 : Word
  /-- AUX1 (R43). -/
  aux1 : Word
  /-- TSEL.SYM (R44). -/
  tsel : Byte
  /-- FREQ (R40). -/
  freq : Table (BitVec 64)
  /-- LEN (R40). -/
  len : Table (BitVec 8)
  /-- CODE (R40). -/
  code : Table (BitVec 255)
  /-- BUF (20_memory.md R70). -/
  buf : Memory
  /-- The engine state (R52). -/
  engine : Engine
  /-- The MODEL's own: which draw gave every BUF byte nothing has written since reset (U1). -/
  bufSeed : Nat
  /-- The MODEL's own: the next unused draw number (assumption 5). -/
  draws : Nat
  /-- The MODEL's own: the moves still to come (assumption 2). -/
  agenda : List Turn
  /-- The MODEL's own: what the host's last read returned (assumption 15). -/
  reply : Option (BitVec 64)
deriving DecidableEq, Repr

/-- No step of this machine faults: every access out of range is defined (20_memory.md R75, R76) and
every error of a command is an outcome, not a stop (60_exceptions.md R268). Assumption 18. -/
inductive Fault where
deriving DecidableEq, Repr

/-- Why an instruction has no meaning here. -/
inductive Refusal where
  /-- Raised by exec's arm of an instruction whose meaning is not written yet: safe, since nothing can
  be proved of its effect. No arm raises it now. -/
  | notModelled (mnemonic : String)
deriving DecidableEq, Repr

/-- The state when reset is released (10_state.md R59, 70_reset_and_hazards.md R280): MAX_RANK 64,
every other register and STATUS field 0, tables zero, engine Idle, BUF unspecified (nothing
listed). The model's own fields: draw 0 is the one BUF has just had, nothing is on the agenda, and
no read has been answered (assumption 5). -/
def State.reset : State where
  cmd := 0
  done := false
  tableValid := false
  overrun := false
  hostConflict := false
  errCode := .none
  errDetail := .none
  lastOp := 0
  doneIE := false
  srcAddr := 0
  srcLen := 0
  dstAddr := 0
  dstCap := 0
  maxRank := Config.maxRankReset
  epsLo := 0
  epsHi := 0
  origLenLo := 0
  origLenHi := 0
  resultLen := 0
  consumed := 0
  aux0 := 0
  aux1 := 0
  tsel := 0
  freq := Vector.replicate 256 0
  len := Vector.replicate 256 0
  code := Vector.replicate 256 0
  buf := []
  engine := .idle
  bufSeed := 0
  draws := 1
  agenda := []
  reply := none

end Sys2Proof.Machine
end

