-- ==== Sys2Proof/Machine/Ops.lean ====
section
/-! DEFINITION. The named operations over BUF, the tables and the registers, and the shared shape of
every command: its checks in order, its body, and the completion writes (30_encoding.md R100, R107;
60_exceptions.md R250 to R255). The block takes no exception (60_exceptions.md R268): a command that
fails ends in `completeFailure`, which is the one operation that reports an error. -/

namespace Sys2Proof.Machine

/-! ## Byte order (20_memory.md R72) -/

/-- `le_u32`, `le_u64`, `le_f64`: the byte at the lowest address is least significant
(00_scope.md R9). -/
def leNat : List Byte → Nat
  | [] => 0
  | b :: bs => b.toNat + 256 * leNat bs

/-- `u32_le`, `u64_le`, `f64_le`: the `n` little-endian bytes of `v` (00_scope.md R9). -/
def leBytes : Nat → Nat → List Byte
  | 0, _ => []
  | n + 1, v => BitVec.ofNat 8 (v % 256) :: leBytes n (v / 256)

/-- `ceil(a / b)` for `b > 0` (00_scope.md R7). -/
def ceilDiv (a b : Nat) : Nat := (a + (b - 1)) / b

/-! ## Tables (10_state.md R40) -/

/-- The symbols 0..255 in order (`ALPHABET`, 00_scope.md R6). -/
def symbols : List Byte := (List.range 256).map (BitVec.ofNat 8)

/-- The entry of symbol `s`. -/
def Table.entry {α : Type} (t : Table α) (s : Byte) : α := t[s.toNat]'s.isLt

/-- The table whose entry for `s` is `f s`. -/
def Table.tabulate {α : Type} (f : Byte → α) : Table α :=
  ⟨((List.range 256).map fun i => f (BitVec.ofNat 8 i)).toArray, by
    simp only [List.size_toArray, List.length_map, List.length_range]⟩

/-! ## BUF (20_memory.md R70) -/

/-- The byte listed at an address. -/
def Memory.lookup : Memory → Nat → Option Byte
  | [], _ => none
  | (k, v) :: m, a => if k = a then some v else Memory.lookup m a

/-- The cells of consecutive bytes from address `a`. -/
def cellsFrom (a : Nat) : List Byte → Memory
  | [] => []
  | b :: bs => (a, b) :: cellsFrom (a + 1) bs

/-- Store consecutive bytes from address `a`, keeping the canonical form. -/
def Memory.write (m : Memory) (a : Nat) (bs : List Byte) : Memory :=
  m.filter (fun c => c.1 < a) ++ cellsFrom a bs ++ m.filter (fun c => a + bs.length ≤ c.1)

/-- One byte of BUF: the byte listed, or the draw that reset gave the address (20_memory.md R74;
assumption 4). -/
def State.readByte (s : State) (a : Nat) : Byte :=
  (Memory.lookup s.buf a).getD (Config.draw 8 s.bufSeed a)

/-- `MemRead(a, n)` (00_scope.md R9). -/
def State.readBytes (s : State) (a n : Nat) : List Byte :=
  (List.range n).map fun i => s.readByte (a + i)

/-- `MemWrite(a, n, bytes)` (00_scope.md R9). -/
def State.writeBytes (s : State) (a : Nat) (bs : List Byte) : State :=
  { s with buf := Memory.write s.buf a bs }

/-! ## Unspecified values (93_implementation_defined.md U1 to U5; assumption 5) -/

/-- `n` unspecified bytes of draw `d`. -/
def drawBytes (d n : Nat) : List Byte := (List.range n).map (Config.draw 8 d)

/-- A table whose every entry is unspecified, of draw `d`. -/
def drawTable (w d : Nat) : Table (BitVec w) := Table.tabulate fun s => Config.draw w d s.toNat

/-- The next draw number is used up. -/
def State.useDraw (s : State) : State := { s with draws := s.draws + 1 }

/-- Every byte of the destination range takes an unspecified value, and no other byte changes
(60_exceptions.md R252, R253, U3). -/
def State.scrambleDst (s : State) : State :=
  (s.writeBytes s.dstAddr.toNat (drawBytes s.draws s.dstCap.toNat)).useDraw

/-! ## Errors (60_exceptions.md R250, R251) -/

/-- An error a command can end with: `ERR(code, detail)`. -/
structure CmdError where
  code : ErrCode
  detail : ErrDetail
deriving DecidableEq, Repr

/-- The bits of STATUS.ERR_CODE (R250). -/
def ErrCode.bits : ErrCode → BitVec 4
  | .none => 0
  | .illegalCmd => 1
  | .badRange => 2
  | .tensorDecomposition => 3
  | .huffmanEncoding => 4
  | .decompressionFailed => 5

/-- The bits of STATUS.ERR_DETAIL (R251). -/
def ErrDetail.bits : ErrDetail → BitVec 8
  | .none => 0x00
  | .badOpcode => 0x01
  | .reservedBits => 0x02
  | .srcRange => 0x10
  | .dstRange => 0x11
  | .overlap => 0x12
  | .outCap => 0x13
  | .lenAlign => 0x14
  | .rankZero => 0x20
  | .emptyInput => 0x21
  | .workLimit => 0x22
  | .noTable => 0x30
  | .symbolUncoded => 0x31
  | .freqOverflow => 0x32
  | .hdrTruncated => 0x40
  | .badMagic => 0x41
  | .badVersion => 0x42
  | .tableTruncated => 0x43
  | .tableLength => 0x44
  | .tableOversub => 0x45
  | .payloadTruncated => 0x46
  | .bitsExhausted => 0x47
  | .noCode => 0x48
  | .chainTruncated => 0x49
  | .chainShape => 0x4A
  | .physDim => 0x4B
  | .origLen => 0x4C

/-- `DECOMPRESSION_FAILED` with a detail. -/
def decompressionFailed (d : ErrDetail) : CmdError := ⟨.decompressionFailed, d⟩

/-- `BAD_RANGE / OUT_CAP`: the result does not fit DST_CAP. -/
def outCapError : CmdError := ⟨.badRange, .outCap⟩

/-- The error of an illegal command word (30_encoding.md R103). -/
def illegalError : Illegal → CmdError
  | .badOpcode => ⟨.illegalCmd, .badOpcode⟩
  | .reservedBits => ⟨.illegalCmd, .reservedBits⟩

/-! ## Issue and completion -/

/-- The opcode byte of a command word (30_encoding.md R101). -/
def opByte (w : Word) : BitVec 8 := w.extractLsb' 0 8

/-- Issue of command word `w`, one atomic step (30_encoding.md R100). -/
def State.issue (s : State) (w : Word) : State :=
  { s with
    cmd := w
    engine := .busy w
    done := false
    errCode := .none
    errDetail := .none
    lastOp := opByte w }

/-- The four result values of a successful command; one a rule does not give is 0
(10_state.md R43, 30_encoding.md R106). -/
structure Results where
  resultLen : Nat := 0
  consumed : Nat := 0
  aux0 : Nat := 0
  aux1 : Nat := 0
deriving DecidableEq, Repr

/-- The completion writes of a command that succeeded (60_exceptions.md R255). -/
def State.completeSuccess (s : State) (r : Results) : State :=
  { s with
    resultLen := BitVec.ofNat 32 r.resultLen
    consumed := BitVec.ofNat 32 r.consumed
    aux0 := BitVec.ofNat 32 r.aux0
    aux1 := BitVec.ofNat 32 r.aux1
    errCode := .none
    errDetail := .none
    engine := .idle
    done := true }

/-- The completion writes of a command that failed (60_exceptions.md R255). -/
def State.completeFailure (s : State) (e : CmdError) : State :=
  { s with
    resultLen := 0
    consumed := 0
    aux0 := 0
    aux1 := 0
    errCode := e.code
    errDetail := e.detail
    engine := .idle
    done := true }

/-- How a command ended, before the completion writes: the state with the command's own effects, and
its results or its error. -/
structure Ended where
  state : State
  result : Except CmdError Results
deriving Repr

/-- The command succeeds with these effects and results. -/
def succeed (s : State) (r : Results) : Ended := ⟨s, .ok r⟩

/-- The command fails, leaving the state given. -/
def fail (s : State) (e : CmdError) : Ended := ⟨s, .error e⟩

/-- The completion writes, for either end (60_exceptions.md R255). -/
def Ended.complete (e : Ended) : State :=
  match e.result with
  | .ok r => e.state.completeSuccess r
  | .error x => e.state.completeFailure x

/-- A check of a command: whether it fails, and the error it then reports. -/
abbrev Check := Bool × CmdError

/-- The first failing check is the one reported (30_encoding.md R107). -/
def firstFailing : List Check → Option CmdError
  | [] => none
  | (failed, e) :: cs => if failed then some e else firstFailing cs

/-- The shape of every command: its pre-checks in order, then its body, then the completion writes,
all in one step (30_encoding.md R107, 60_exceptions.md R253, R254). -/
def runCommand (s : State) (checks : List Check) (body : State → Ended) :
    Host.Outcome State Fault Refusal :=
  match firstFailing checks with
  | some e => .next (fail s e).complete
  | none => .next (body s).complete

end Sys2Proof.Machine
end

