-- ==== Sys2Proof/Machine/Operands.lean ====
section
/-! DEFINITION. The operands of a command, all taken from registers, and the operand checks
(30_encoding.md R104, R105, R109). -/

namespace Sys2Proof.Machine

/-- Which commands use the source range (30_encoding.md R104). HDR_PACK reads SRC_LEN as a value. -/
def usesSrc : Instr → Bool
  | .ampMap => true
  | .ampUnmap => true
  | .decompose => true
  | .chainCheck => true
  | .reconstruct => true
  | .histAccum => true
  | .tableLoad => true
  | .encode => true
  | .decode => true
  | .hdrParse => true
  | .nop => false
  | .histClear => false
  | .buildTable => false
  | .tableStore => false
  | .hdrPack => false

/-- Which commands use the destination range (30_encoding.md R104). -/
def usesDst : Instr → Bool
  | .ampMap => true
  | .ampUnmap => true
  | .decompose => true
  | .reconstruct => true
  | .tableStore => true
  | .encode => true
  | .decode => true
  | .hdrPack => true
  | .nop => false
  | .chainCheck => false
  | .histClear => false
  | .histAccum => false
  | .buildTable => false
  | .tableLoad => false
  | .hdrParse => false

/-- The source range ends past BUF; the sum does not wrap (30_encoding.md R105). -/
def State.srcOutside (s : State) : Bool := Config.bufBytes < s.srcAddr.toNat + s.srcLen.toNat

/-- The destination range ends past BUF (30_encoding.md R105). -/
def State.dstOutside (s : State) : Bool := Config.bufBytes < s.dstAddr.toNat + s.dstCap.toNat

/-- Two non-empty ranges that intersect (30_encoding.md R105). -/
def State.rangesOverlap (s : State) : Bool :=
  0 < s.srcLen.toNat && 0 < s.dstCap.toNat &&
    (s.srcAddr.toNat < s.dstAddr.toNat + s.dstCap.toNat &&
      s.dstAddr.toNat < s.srcAddr.toNat + s.srcLen.toNat)

/-- The operand checks of a command, in order (30_encoding.md R105). -/
def operandChecks (i : Instr) (s : State) : List Check :=
  [ (usesSrc i && s.srcOutside, ⟨.badRange, .srcRange⟩),
    (usesDst i && s.dstOutside, ⟨.badRange, .dstRange⟩),
    (usesSrc i && (usesDst i && s.rangesOverlap), ⟨.badRange, .overlap⟩) ]

/-- The bytes of the source range. Every command reads all its source before it writes: the two
ranges are disjoint, so the order cannot be seen (30_encoding.md R105; assumption 11). -/
def State.srcBytes (s : State) : List Byte := s.readBytes s.srcAddr.toNat s.srcLen.toNat

/-- Write from the start of the destination range. -/
def State.writeDst (s : State) (bs : List Byte) : State := s.writeBytes s.dstAddr.toNat bs

/-- EPS, the pattern `EPS_HI : EPS_LO` (10_state.md R41). -/
def State.eps (s : State) : F64 := s.epsHi ++ s.epsLo

/-- ORIG_LEN, the unsigned value `ORIG_LEN_HI : ORIG_LEN_LO` (10_state.md R42). -/
def State.origLen (s : State) : Nat := (s.origLenHi ++ s.origLenLo : BitVec 64).toNat

/-- `ORIG_LEN <- v` (10_state.md R42). -/
def State.setOrigLen (s : State) (v : Nat) : State :=
  { s with
    origLenLo := BitVec.ofNat 32 v
    origLenHi := BitVec.ofNat 32 (v / 2 ^ 32) }

end Sys2Proof.Machine
end

