-- ==== Sys2Proof/Machine/Amplitude.lean ====
section
/-! DEFINITION. The amplitude mapper and its two commands (41_amplitude.md). -/

namespace Sys2Proof.Machine

/-- `amp(b)` (41_amplitude.md R140). -/
def amp (b : Byte) : C64 := ⟨F64.div (F64.ofNat b.toNat) F64.c255, 0⟩

/-- `unamp(z)`: NaN gives 0, +infinity 255, -infinity 0, and the rest is rounded and clamped; the
imaginary part is ignored (41_amplitude.md R141). -/
def unamp (z : C64) : Byte :=
  let x := F64.mul z.re F64.c255
  if F64.isNaN x then 0
  else if F64.isInf x then (if F64.sign x then 0 else 255)
  else BitVec.ofInt 8 (min 255 (max 0 (F64.roundHalfAway x)))

/-- The 16 bytes of an amplitude or of a chain entry: `f64_le(re) ++ f64_le(im)`
(41_amplitude.md R140, 42_tensor_train.md R150). -/
def c64Bytes (z : C64) : List Byte := leBytes 8 z.re.toNat ++ leBytes 8 z.im.toNat

/-- The amplitude stored in the first 16 bytes given. -/
def c64OfBytes (bs : List Byte) : C64 :=
  ⟨BitVec.ofNat 64 (leNat (bs.take 8)), BitVec.ofNat 64 (leNat ((bs.drop 8).take 8))⟩

/-- `n` amplitudes from consecutive bytes. -/
def c64List : Nat → List Byte → List C64
  | 0, _ => []
  | n + 1, bs => c64OfBytes bs :: c64List n (bs.drop 16)

/-- AMP_MAP (41_amplitude.md R142). -/
def execAmpMap (s : State) : Host.Outcome State Fault Refusal :=
  let n := s.srcLen.toNat
  runCommand s (operandChecks .ampMap s ++ ([(s.dstCap.toNat < 16 * n, outCapError)] : List Check)) fun s =>
    succeed (s.writeDst (s.srcBytes.flatMap fun b => c64Bytes (amp b)))
      { resultLen := 16 * n, consumed := n }

/-- AMP_UNMAP (41_amplitude.md R143). -/
def execAmpUnmap (s : State) : Host.Outcome State Fault Refusal :=
  let n := s.srcLen.toNat / 16
  runCommand s
    (operandChecks .ampUnmap s ++
      ([ (s.srcLen.toNat % 16 != 0, ⟨.badRange, .lenAlign⟩),
         (s.dstCap.toNat < n, outCapError) ] : List Check)) fun s =>
    succeed (s.writeDst ((c64List n s.srcBytes).map unamp))
      { resultLen := n, consumed := s.srcLen.toNat }

end Sys2Proof.Machine
end

