-- ==== Sys2Proof/Machine/Container.lean ====
section
/-! DEFINITION. The container header commands (44_container.md). -/

namespace Sys2Proof.Machine

/-- The size of the container header (44_container.md R242). -/
def headerBytes : Nat := 9

/-- The container header with the table length given (44_container.md R240, R242). -/
def header (tableLength : Nat) : List Byte :=
  Config.magic ++ [Config.containerVersion] ++ leBytes 4 tableLength

/-- HDR_PACK (44_container.md R240). -/
def execHdrPack (s : State) : Host.Outcome State Fault Refusal :=
  runCommand s
    (operandChecks .hdrPack s ++
      ([(s.dstCap.toNat < headerBytes, outCapError)] : List Check)) fun s =>
    succeed (s.writeDst (header s.srcLen.toNat)) { resultLen := headerBytes }

/-- The first 9 bytes of the source range, the header (44_container.md R241). -/
def State.headerSrc (s : State) : List Byte := s.readBytes s.srcAddr.toNat headerBytes

/-- The table length the header declares (44_container.md R241). -/
def State.headerTableLength (s : State) : Nat := leNat ((s.headerSrc.drop 5).take 4)

/-- The checks of HDR_PARSE on a header that is all there, in order (44_container.md R241). -/
def headerChecks (s : State) : List Check :=
  [ (s.headerSrc.take 4 != Config.magic, decompressionFailed .badMagic),
    (s.headerSrc.getD 4 0 != Config.containerVersion, decompressionFailed .badVersion),
    (s.srcLen.toNat - headerBytes < s.headerTableLength, decompressionFailed .tableTruncated) ]

/-- HDR_PARSE (44_container.md R241). -/
def execHdrParse (s : State) : Host.Outcome State Fault Refusal :=
  runCommand s
    (operandChecks .hdrParse s ++
      ([(s.srcLen.toNat < headerBytes, decompressionFailed .hdrTruncated)] : List Check)) fun s =>
    match firstFailing (headerChecks s) with
    | some e => fail s e
    | none =>
      succeed s
        { consumed := headerBytes
          aux0 := s.headerTableLength
          aux1 := s.srcLen.toNat - headerBytes - s.headerTableLength }

end Sys2Proof.Machine
end

