-- ==== Sys2Proof/Machine/Control.lean ====
section
/-! DEFINITION. The control command (40_control.md). -/

namespace Sys2Proof.Machine

/-- NOP (40_control.md R130). -/
def execNop (s : State) : Host.Outcome State Fault Refusal :=
  runCommand s (operandChecks .nop s) fun s => succeed s {}

end Sys2Proof.Machine
end

