-- ==== Sys2Proof/Machine/HuffmanCode.lean ====
section
/-! DEFINITION. The canonical Huffman code: lengths from frequencies (43_huffman.md R193, R194),
codes from lengths (R197, R199), bit strings and their packing (R203, R204) and the match step of the
decoder (R207, R208). -/

namespace Sys2Proof.Machine

/-! ## Lengths from frequencies -/

/-- The tree of R194. -/
inductive HTree where
  | leaf (s : Byte)
  | node (left right : HTree)
deriving DecidableEq, Repr

/-- A node of the priority queue: its frequency, its key and its tree (R194). -/
structure HNode where
  freq : Nat
  key : Nat
  tree : HTree
deriving DecidableEq, Repr

/-- The queue order, `(frequency, key)` ascending (R194). -/
def HNode.before (a b : HNode) : Bool := a.freq < b.freq || (a.freq == b.freq && a.key < b.key)

/-- Push into the queue, which is kept in its order. -/
def pushNode (x : HNode) : List HNode → List HNode
  | [] => [x]
  | y :: ys => if x.before y then x :: y :: ys else y :: pushNode x ys

/-- The parent of the two nodes popped: summed frequency, least key (R194). -/
def parentNode (x y : HNode) : HNode := ⟨x.freq + y.freq, min x.key y.key, .node x.tree y.tree⟩

/-- Pop two, push their parent, `fuel` times or until one node is left (R194). -/
def mergeNodes : Nat → List HNode → List HNode
  | fuel + 1, x :: y :: q => mergeNodes fuel (pushNode (parentNode x y) q)
  | _, q => q

/-- The symbols with a frequency that is not 0. -/
def presentSymbols (f : Table (BitVec 64)) : List Byte := symbols.filter fun s => f.entry s != 0

/-- The queue of leaves (R194). -/
def leafQueue (f : Table (BitVec 64)) : List HNode :=
  (presentSymbols f).foldr (fun s q => pushNode ⟨(f.entry s).toNat, s.toNat, .leaf s⟩ q) []

/-- The root of the tree, when there is a symbol (R194). Every merge leaves one node less. -/
def huffmanRoot (f : Table (BitVec 64)) : Option HTree :=
  ((mergeNodes (leafQueue f).length (leafQueue f)).head?).map HNode.tree

/-- The depth of the leaf of `s` (R194). -/
def HTree.depthOf (s : Byte) : HTree → Option Nat
  | .leaf t => if t = s then some 0 else none
  | .node l r =>
    match l.depthOf s with
    | some d => some (d + 1)
    | none => (r.depthOf s).map (· + 1)

/-- `build_lengths(F)` (R194). -/
def buildLengths (f : Table (BitVec 64)) : Table (BitVec 8) :=
  let root := huffmanRoot f
  .tabulate fun s =>
    if f.entry s = 0 then 0 else BitVec.ofNat 8 ((root.bind (HTree.depthOf s)).getD 0)

/-- The length array BUILD_TABLE computes, degenerate histograms included (R192, R193). -/
def tableLengths (f : Table (BitVec 64)) : Table (BitVec 8) :=
  match (presentSymbols f).length with
  | 0 => .tabulate fun _ => 0
  | 1 => .tabulate fun s => if f.entry s = 0 then 0 else 1
  | _ => buildLengths f

/-! ## Codes from lengths -/

/-- The symbols that have a code. -/
def codedSymbols (l : Table (BitVec 8)) : List Byte := symbols.filter fun s => l.entry s != 0

/-- `nsym` (30_encoding.md R106). -/
def codedCount (l : Table (BitVec 8)) : Nat := (codedSymbols l).length

/-- `maxlen` (30_encoding.md R106). -/
def maxLength (l : Table (BitVec 8)) : Nat :=
  ((codedSymbols l).map fun s => (l.entry s).toNat).foldl max 0

/-- The Kraft sum in units of 2^-255 (R197). -/
def kraftSum (l : Table (BitVec 8)) : Nat :=
  ((codedSymbols l).map fun s => 2 ^ (Config.maxCodeLen - (l.entry s).toNat)).sum

/-- The Kraft sum is at most 1 (R197). -/
def admissible (l : Table (BitVec 8)) : Bool := kraftSum l ≤ 2 ^ Config.maxCodeLen

/-- The canonical order, `(L[s], s)` ascending (R199). -/
abbrev codesBefore (l : Table (BitVec 8)) (s t : Byte) : Prop :=
  (l.entry s).toNat < (l.entry t).toNat ∨
    ((l.entry s).toNat = (l.entry t).toNat ∧ s.toNat ≤ t.toNat)

/-- `S`, the coded symbols in canonical order (R199). -/
def canonicalOrder (l : Table (BitVec 8)) : List Byte :=
  (codedSymbols l).insertionSort (codesBefore l)

/-- The codes of the symbols after the first, from the previous code and its length (R199). -/
def codesFrom (l : Table (BitVec 8)) (code prev : Nat) : List Byte → List (Byte × Nat)
  | [] => []
  | s :: ss =>
    let len := (l.entry s).toNat
    let c := (code + 1) <<< (len - prev)
    (s, c) :: codesFrom l c len ss

/-- Every coded symbol with its code: the first code is 0 (R199). -/
def canonicalCodes (l : Table (BitVec 8)) : List (Byte × Nat) :=
  match canonicalOrder l with
  | [] => []
  | s :: ss => (s, 0) :: codesFrom l 0 (l.entry s).toNat ss

/-- `canonical(L)` (R199). An admissible `L` has every code below 2^255, so no bit is lost. -/
def canonical (l : Table (BitVec 8)) : Table (BitVec 255) :=
  let codes := canonicalCodes l
  .tabulate fun s => BitVec.ofNat 255 ((codes.lookup s).getD 0)

/-! ## Bit strings -/

/-- `bits_msb(c, L)` (00_scope.md R8). -/
def bitsMsb (c : BitVec 255) (n : Nat) : List Bool :=
  (List.range n).map fun k => c.getLsbD (n - 1 - k)

/-- The bit string of the code of `s` (R199). -/
def codeString (l : Table (BitVec 8)) (c : Table (BitVec 255)) (s : Byte) : List Bool :=
  bitsMsb (c.entry s) (l.entry s).toNat

/-- The byte whose bit `7 - p` is bit `p` of the string, and 0 past its end (R203, R204). -/
def packByte (w : List Bool) : Byte :=
  BitVec.ofNat 8 (((List.range 8).map fun p => if w.getD p false then 2 ^ (7 - p) else 0).sum)

/-- A bit string packed into bytes, the last one padded with 0 (R203, R204). -/
def packBits (w : List Bool) : List Byte :=
  (List.range (ceilDiv w.length 8)).map fun k => packByte (w.drop (8 * k))

/-- The bits of a byte in stream order, bit 7 first (R203, R207). -/
def byteBits (b : Byte) : List Bool := (List.range 8).map fun p => b.getLsbD (7 - p)

/-! ## The match step -/

/-- Every coded symbol with its bit string. -/
def codeBook (l : Table (BitVec 8)) (c : Table (BitVec 255)) : List (Byte × List Bool) :=
  (codedSymbols l).map fun s => (s, codeString l c s)

/-- One symbol from the stream: a complete code is taken at once; else NO_CODE when no longer code
begins with the bits read; else BITS_EXHAUSTED when no bit is left; else one more bit is read
(R208). -/
def matchStep (book : List (Byte × List Bool)) (w rest : List Bool) :
    Except ErrDetail (Byte × List Bool) :=
  match book.find? fun e => e.2 == w with
  | some e => .ok (e.1, rest)
  | none =>
    if book.any fun e => w.length < e.2.length && e.2.take w.length == w then
      match rest with
      | [] => .error .bitsExhausted
      | b :: rest' => matchStep book (w ++ [b]) rest'
    else .error .noCode
termination_by structural rest

/-- `n` symbols from the stream, and the bits left (R209, R210). -/
def decodeSymbols (book : List (Byte × List Bool)) :
    Nat → List Bool → Except ErrDetail (List Byte × List Bool)
  | 0, rest => .ok ([], rest)
  | n + 1, rest =>
    match matchStep book [] rest with
    | .error e => .error e
    | .ok (s, rest') =>
      match decodeSymbols book n rest' with
      | .error e => .error e
      | .ok (ss, after) => .ok (s :: ss, after)

end Sys2Proof.Machine
end

