-- ==== Sys2Proof/Machine/Huffman.lean ====
section
/-! DEFINITION. The Huffman codec commands (43_huffman.md). -/

namespace Sys2Proof.Machine

/-! ## Histogram -/

/-- `FREQ <- f`. -/
def State.setFreq (s : State) (f : Table (BitVec 64)) : State := { s with freq := f }

/-- `LEN <- l; CODE <- c; STATUS.TABLE_VALID <- v` (10_state.md R51). -/
def State.setTable (s : State) (l : Table (BitVec 8)) (c : Table (BitVec 255)) (v : Bool) : State :=
  { s with
    len := l
    code := c
    tableValid := v }

/-- HIST_CLEAR (43_huffman.md R190). -/
def execHistClear (s : State) : Host.Outcome State Fault Refusal :=
  runCommand s (operandChecks .histClear s) fun s => succeed (s.setFreq (.tabulate fun _ => 0)) {}

/-- A counter would pass 2^64 - 1 (43_huffman.md R191). -/
def histOverflows (f : Table (BitVec 64)) (src : List Byte) : Bool :=
  symbols.any fun s => 2 ^ 64 - 1 < (f.entry s).toNat + src.count s

/-- `FREQ[s] + h[s]` (43_huffman.md R191). -/
def histSum (f : Table (BitVec 64)) (src : List Byte) : Table (BitVec 64) :=
  .tabulate fun s => BitVec.ofNat 64 ((f.entry s).toNat + src.count s)

/-- The body of HIST_ACCUM after its pre-checks (43_huffman.md R191); on overflow every FREQ entry
is unspecified (U4). -/
def histAccumBody (s : State) : Ended :=
  let src := s.srcBytes
  if histOverflows s.freq src then
    fail (s.setFreq (drawTable 64 s.draws)).useDraw ⟨.huffmanEncoding, .freqOverflow⟩
  else succeed (s.setFreq (histSum s.freq src)) { consumed := s.srcLen.toNat }

/-- HIST_ACCUM (43_huffman.md R191). -/
def execHistAccum (s : State) : Host.Outcome State Fault Refusal :=
  runCommand s (operandChecks .histAccum s) histAccumBody

/-! ## Tables -/

/-- BUILD_TABLE (43_huffman.md R192). -/
def execBuildTable (s : State) : Host.Outcome State Fault Refusal :=
  runCommand s (operandChecks .buildTable s) fun s =>
    let l := tableLengths s.freq
    succeed (s.setTable l (canonical l) true)
      { aux0 := (presentSymbols s.freq).length, aux1 := maxLength l }

/-- TABLE_STORE (43_huffman.md R195). -/
def execTableStore (s : State) : Host.Outcome State Fault Refusal :=
  runCommand s
    (operandChecks .tableStore s ++
      ([ (!s.tableValid, ⟨.huffmanEncoding, .noTable⟩),
         (s.dstCap.toNat < Config.tableBytes, outCapError) ] : List Check)) fun s =>
    succeed (s.writeDst (symbols.map s.len.entry))
      { resultLen := Config.tableBytes, aux0 := codedCount s.len, aux1 := maxLength s.len }

/-- The length array stored as 256 bytes (43_huffman.md R195, R196). -/
def lengthsOfBytes (bs : List Byte) : Table (BitVec 8) :=
  .tabulate fun s => bs.getD s.toNat 0

/-- The body of TABLE_LOAD after its pre-checks (43_huffman.md R196); an oversubscribed array leaves
LEN and CODE unspecified (U5). -/
def tableLoadBody (s : State) : Ended :=
  let l := lengthsOfBytes s.srcBytes
  if admissible l then
    succeed (s.setTable l (canonical l) true)
      { consumed := Config.tableBytes, aux0 := codedCount l, aux1 := maxLength l }
  else
    fail (s.setTable (drawTable 8 s.draws) (drawTable 255 s.draws) false).useDraw
      (decompressionFailed .tableOversub)

/-- TABLE_LOAD (43_huffman.md R196). -/
def execTableLoad (s : State) : Host.Outcome State Fault Refusal :=
  runCommand s
    (operandChecks .tableLoad s ++
      ([(s.srcLen.toNat != Config.tableBytes, decompressionFailed .tableLength)] : List Check))
    tableLoadBody

/-! ## ENCODE and DECODE -/

/-- The bit string of the source under the tables (43_huffman.md R205). -/
def encodedBits (l : Table (BitVec 8)) (c : Table (BitVec 255)) (src : List Byte) : List Bool :=
  src.flatMap (codeString l c)

/-- `B`, the number of code bits (43_huffman.md R206). -/
def bitCount (l : Table (BitVec 8)) (src : List Byte) : Nat :=
  (src.map fun x => (l.entry x).toNat).sum

/-- The payload of the source bytes: the count, then the packed bits (43_huffman.md R202, R205). -/
def payload (l : Table (BitVec 8)) (c : Table (BitVec 255)) (src : List Byte) : List Byte :=
  leBytes 8 src.length ++ packBits (encodedBits l c src)

/-- The body of ENCODE after its pre-checks (43_huffman.md R205). -/
def encodeBody (s : State) : Ended :=
  let src := s.srcBytes
  let b := bitCount s.len src
  let size := 8 + ceilDiv b 8
  if src.any fun x => s.len.entry x == 0 then
    fail s.scrambleDst ⟨.huffmanEncoding, .symbolUncoded⟩
  else if s.dstCap.toNat < size then fail s.scrambleDst outCapError
  else
    succeed (s.writeDst (payload s.len s.code src))
      { resultLen := size
        consumed := s.srcLen.toNat
        aux0 := b % 2 ^ 32
        aux1 := b / 2 ^ 32 }

/-- ENCODE (43_huffman.md R205). -/
def execEncode (s : State) : Host.Outcome State Fault Refusal :=
  runCommand s
    (operandChecks .encode s ++ ([(!s.tableValid, ⟨.huffmanEncoding, .noTable⟩)] : List Check))
    encodeBody

/-- The declared count of a payload, its first 8 bytes (43_huffman.md R202, R210). -/
def State.payloadCount (s : State) : Nat := leNat (s.readBytes s.srcAddr.toNat 8)

/-- The readable stream of a payload (43_huffman.md R207). -/
def payloadBits (src : List Byte) : List Bool := (src.drop 8).flatMap byteBits

/-- The body of DECODE on a payload that holds its count (43_huffman.md R210): the declared count is
compared with DST_CAP, and then the symbols are read. -/
def decodeBody (s : State) : Ended :=
  let bits := payloadBits s.srcBytes
  if s.dstCap.toNat < s.payloadCount then fail s outCapError
  else
    match decodeSymbols (codeBook s.len s.code) s.payloadCount bits with
    | .error d => fail s.scrambleDst (decompressionFailed d)
    | .ok (out, after) =>
      let j := bits.length - after.length
      succeed (s.writeDst out)
        { resultLen := s.payloadCount
          consumed := 8 + ceilDiv j 8
          aux0 := j % 2 ^ 32
          aux1 := j / 2 ^ 32 }

/-- DECODE (43_huffman.md R210). -/
def execDecode (s : State) : Host.Outcome State Fault Refusal :=
  runCommand s
    (operandChecks .decode s ++
      ([ (!s.tableValid, decompressionFailed .noTable),
         (s.srcLen.toNat < 8, decompressionFailed .payloadTruncated) ] : List Check))
    decodeBody

end Sys2Proof.Machine
end

