-- ==== Sys2Proof/Machine/Chain.lean ====
section
/-! DEFINITION. The tensor chain: its byte layout (42_tensor_train.md R150 to R152), its validation
(R163 to R165) and its contraction (R153, R167). -/

namespace Sys2Proof.Machine

/-! ## Matrices (00_scope.md R11) -/

/-- `reshape(A, p, q)`: the row-major listing stays (00_scope.md R11). -/
def matReshape (x : CMat) (p q : Nat) : CMat := ⟨p, q, x.entries⟩

/-- Entry `(i, j)` (00_scope.md R11). -/
def matEntry (x : CMat) (i j : Nat) : C64 := x.entries.getD (i * x.cols + j) czero

/-- Row `i`. -/
def matRow (x : CMat) (i : Nat) : List C64 := (x.entries.drop (i * x.cols)).take x.cols

/-- Column `j`. -/
def matCol (x : CMat) (j : Nat) : List C64 := (List.range x.rows).map fun i => matEntry x i j

/-- The sum of products in ascending inner index, starting from the first product
(42_tensor_train.md R153). -/
def cdot (xs ys : List C64) : C64 :=
  match List.zipWith cmul xs ys with
  | [] => czero
  | z :: zs => zs.foldl cadd z

/-- `CMATMUL(X, Y)`, the reference product (42_tensor_train.md R153; assumption 10). -/
def cmatmul (x y : CMat) : CMat :=
  let cols := (List.range y.cols).map (matCol y)
  ⟨x.rows, y.cols, (List.range x.rows).flatMap fun p => cols.map (cdot (matRow x p))⟩

/-! ## Serializing (42_tensor_train.md R150, R151) -/

/-- `rows`, `cols`, then the entries in row-major order. -/
def tensorBytes (t : CMat) : List Byte :=
  leBytes 4 t.rows ++ leBytes 4 t.cols ++ t.entries.flatMap c64Bytes

/-- The serialized chain (R150). -/
def chainBytes (bonds : List Nat) (ts : List CMat) : List Byte :=
  leBytes 4 ts.length ++ leBytes 4 Config.physDim ++ bonds.flatMap (leBytes 4) ++
    ts.flatMap tensorBytes

/-! ## Parsing (42_tensor_train.md R163 to R165) -/

/-- `legal_shape(i, rows, cols)` in a chain of `tc` tensors with the bonds given (R163). -/
def legalShape (tc : Nat) (bonds : List Nat) (i rows cols : Nat) : Bool :=
  if tc = 1 then 1 ≤ rows && rows ≤ 256 && cols == 1
  else if i = 0 then rows == 256 && cols == bonds.getD 0 0
  else if i < tc - 1 then rows == 256 * bonds.getD (i - 1) 0 && cols == bonds.getD i 0
  else
    let b := bonds.getD (tc - 2) 0
    cols == 1 && rows % b == 0 && (1 ≤ rows / b && rows / b ≤ 256)

/-- The `n` bond dimensions, each in 1..256, and the bytes after them (R164). The caller has checked
that the bytes are there. -/
def parseBonds : Nat → List Byte → Except ErrDetail (List Nat × List Byte)
  | 0, bs => .ok ([], bs)
  | n + 1, bs =>
    let b := leNat (bs.take 4)
    if b < 1 ∨ 256 < b then .error .chainShape
    else
      match parseBonds n (bs.drop 4) with
      | .error e => .error e
      | .ok (rest, after) => .ok (b :: rest, after)

/-- The last `n` tensors of a chain of `tc`, and the bytes after them; every declared size is
compared with the bytes left before it is used (R164). -/
def parseTensors (tc : Nat) (bonds : List Nat) :
    Nat → List Byte → Except ErrDetail (List CMat × List Byte)
  | 0, bs => .ok ([], bs)
  | n + 1, bs =>
    if bs.length < 8 then .error .chainTruncated
    else
      let rows := leNat (bs.take 4)
      let cols := leNat ((bs.drop 4).take 4)
      let body := bs.drop 8
      if legalShape tc bonds (tc - (n + 1)) rows cols = false then .error .chainShape
      else if body.length < 16 * rows * cols then .error .chainTruncated
      else
        match parseTensors tc bonds n (body.drop (16 * rows * cols)) with
        | .error e => .error e
        | .ok (rest, after) => .ok (⟨rows, cols, c64List (rows * cols) body⟩ :: rest, after)

/-- What `parse_chain` returns (R164). -/
structure Chain where
  bonds : List Nat
  tensors : List CMat
  padded : Nat
  consumed : Nat
deriving DecidableEq, Repr

/-- The padded length of a chain that passed the shape rules (R165): the last tensor's rows over the
bond before it (over 1 when it is the only tensor), times 256 for every tensor before it. -/
def paddedLength (bonds : List Nat) (ts : List CMat) : Nat :=
  256 ^ (ts.length - 1) * ((ts.getLast?.map CMat.rows).getD 0 / bonds.getLast?.getD 1)

/-- `parse_chain` over the bytes of the source range (R164). Bytes after the chain are not read. -/
def parseChain (src : List Byte) : Except ErrDetail Chain :=
  if src.length < 8 then .error .chainTruncated
  else
    let tc := leNat (src.take 4)
    let pd := leNat ((src.drop 4).take 4)
    let body := src.drop 8
    if tc = 0 then .error .chainShape
    else if pd ≠ Config.physDim then .error .physDim
    else if body.length < 4 * (tc - 1) then .error .chainTruncated
    else
      match parseBonds (tc - 1) body with
      | .error e => .error e
      | .ok (bonds, body') =>
        match parseTensors tc bonds tc body' with
        | .error e => .error e
        | .ok (ts, after) =>
          let np := paddedLength bonds ts
          if 2 ^ 64 ≤ np then .error .chainShape
          else .ok ⟨bonds, ts, np, src.length - after.length⟩

/-! ## Contraction (42_tensor_train.md R167) -/

/-- One product of the contraction, with the reshapes around it (R167). -/
def contractStep (x t : CMat) : CMat :=
  let b := x.cols
  let e := t.rows / b
  matReshape (cmatmul x (matReshape t b (e * t.cols))) (x.rows * e) t.cols

/-- `contract`: the vector `v[0 .. N_p-1]` of a parsed chain (R167). -/
def contract : List CMat → List C64
  | [] => []
  | t :: ts => (ts.foldl contractStep t).entries

end Sys2Proof.Machine
end

