-- ==== Sys2Proof/Machine/Svd.lean ====
section
/-! DEFINITION. The parameter SVD held to its contract (42_tensor_train.md R158) and the
decomposition built on it (R154 to R159). -/

namespace Sys2Proof.Machine

/-- Hold one raw singular value to the contract: not NaN, not negative, not above the one before it.
A value that meets the contract is kept as it is. -/
def contractSigma (before raw : F64) : F64 :=
  if F64.isNaN raw || F64.key raw < 0 then 0
  else if F64.key before < F64.key raw then before
  else raw

/-- `n` singular values from index `j`, each held to the contract after the one before it. -/
def sigmaFrom (raw : Nat → F64) (before : F64) (j : Nat) : Nat → List F64
  | 0 => []
  | n + 1 =>
    let x := contractSigma before (raw j)
    x :: sigmaFrom raw x (j + 1) n

/-- `t = min(p, q)` (R158). -/
def svdRank (m : CMat) : Nat := min m.rows m.cols

/-- The sequence sigma of SVD: `t` values, non-negative, not NaN, not rising (R158). Every sequence
that meets the contract is some value of the free parameter, and no other sequence is
(assumption 9). -/
def singularValues (m : CMat) : List F64 :=
  sigmaFrom (Config.svdSigma m) (BitVec.ofNat 64 F64.infMag) 0 (svdRank m)

/-- The number of singular values above EPS (R157). -/
def significantCount (m : CMat) (eps : F64) : Nat :=
  (singularValues m).countP fun x => F64.gt x eps

/-- The rank `k` kept at a step (R157). -/
def rankKept (maxRank : Nat) (eps : F64) (m : CMat) : Nat :=
  max 1 (min maxRank (min Config.physDim (significantCount m eps)))

/-- The emitted tensor `U[:, 0..k)` (R159). -/
def leftTensor (m : CMat) (k : Nat) : CMat :=
  ⟨m.rows, k, (List.range m.rows).flatMap fun i => (List.range k).map (Config.svdLeft m i)⟩

/-- The next remainder, `rscale(sigma[j], Vh[j][col])` for `j < k` (R159). -/
def nextRemainder (m : CMat) (k : Nat) : List C64 :=
  (List.range k).flatMap fun j =>
    (List.range m.cols).map fun col => rscale ((singularValues m).getD j 0) (Config.svdRight m j col)

/-- The bonds and tensors of `m` steps from a remainder of shape `r x C`, then the final column
(R156, R157, R159). -/
def decomposeFrom (maxRank : Nat) (eps : F64) :
    Nat → Nat → Nat → List C64 → List Nat × List CMat
  | 0, r, c, rem => ([], [⟨r * c, 1, rem⟩])
  | m + 1, r, c, rem =>
    let unfolding : CMat := ⟨r * 256, c / 256, rem⟩
    let k := rankKept maxRank eps unfolding
    let rest := decomposeFrom maxRank eps m k (c / 256) (nextRemainder unfolding k)
    (k :: rest.1, leftTensor unfolding k :: rest.2)

/-- The least `m` from `m0` on with `ceil(n / 256^m) < 256` (R155). `fuel` bounds the search:
`log2 n + 1` tries are more than enough. -/
def leastStep (n : Nat) : Nat → Nat → Nat
  | 0, m0 => m0
  | fuel + 1, m0 => if ceilDiv n (256 ^ m0) < 256 then m0 else leastStep n fuel (m0 + 1)

/-- The step count `m` of `n` input bytes (R155). -/
def stepCount (n : Nat) : Nat := if n < 256 then 0 else leastStep n (n.log2 + 1) 1

/-- The last factor `c` (R155). -/
def lastFactor (n : Nat) : Nat := ceilDiv n (256 ^ stepCount n)

/-- `N_p` of `n` input bytes (R155). -/
def paddedCount (n : Nat) : Nat := lastFactor n * 256 ^ stepCount n

/-- The padded amplitude vector (R154). -/
def amplitudeVector (src : List Byte) : List C64 :=
  src.map amp ++ List.replicate (paddedCount src.length - src.length) czero

/-- The bonds and tensors of the decomposition of the input bytes (R160). -/
def decomposition (maxRank : Nat) (eps : F64) (src : List Byte) : List Nat × List CMat :=
  decomposeFrom maxRank eps (stepCount src.length) 1 (paddedCount src.length)
    (amplitudeVector src)

end Sys2Proof.Machine
end

