-- ==== Sys2Proof/Machine/TensorTrain.lean ====
section
/-! DEFINITION. The tensor-train commands (42_tensor_train.md R160, R166, R168). -/

namespace Sys2Proof.Machine

/-- The body of DECOMPOSE after its pre-checks (42_tensor_train.md R160). -/
def decomposeBody (s : State) : Ended :=
  let d := decomposition s.maxRank.toNat s.eps s.srcBytes
  let bytes := chainBytes d.1 d.2
  if s.dstCap.toNat < bytes.length then fail s.scrambleDst outCapError
  else
    succeed ((s.writeDst bytes).setOrigLen s.srcLen.toNat)
      { resultLen := bytes.length
        consumed := s.srcLen.toNat
        aux0 := d.2.length
        aux1 := d.1.foldl max 0 }

/-- DECOMPOSE (42_tensor_train.md R160). -/
def execDecompose (s : State) : Host.Outcome State Fault Refusal :=
  runCommand s
    (operandChecks .decompose s ++
      ([ (s.maxRank == 0, ⟨.tensorDecomposition, .rankZero⟩),
         (s.srcLen == 0, ⟨.tensorDecomposition, .emptyInput⟩),
         (Config.workElems < paddedCount s.srcLen.toNat, ⟨.tensorDecomposition, .workLimit⟩) ] :
        List Check))
    decomposeBody

/-- CHAIN_CHECK (42_tensor_train.md R166). -/
def execChainCheck (s : State) : Host.Outcome State Fault Refusal :=
  runCommand s (operandChecks .chainCheck s) fun s =>
    match parseChain s.srcBytes with
    | .error d => fail s (decompressionFailed d)
    | .ok c =>
      succeed s
        { consumed := c.consumed
          aux0 := c.padded % 2 ^ 32
          aux1 := c.padded / 2 ^ 32 }

/-- The checks of RECONSTRUCT on a parsed chain, in order (42_tensor_train.md R168). -/
def reconstructChecks (s : State) (c : Chain) : List Check :=
  [ (Config.workElems < c.padded, decompressionFailed .workLimit),
    (c.padded < s.origLen, decompressionFailed .origLen),
    (s.dstCap.toNat < s.origLen, outCapError) ]

/-- The bytes RECONSTRUCT writes: the first `n` of the contraction, mapped back
(42_tensor_train.md R168). -/
def reconstructed (c : Chain) (n : Nat) : List Byte := ((contract c.tensors).take n).map unamp

/-- RECONSTRUCT (42_tensor_train.md R168). -/
def execReconstruct (s : State) : Host.Outcome State Fault Refusal :=
  runCommand s (operandChecks .reconstruct s) fun s =>
    match parseChain s.srcBytes with
    | .error d => fail s (decompressionFailed d)
    | .ok c =>
      match firstFailing (reconstructChecks s c) with
      | some e => fail s e
      | none =>
        succeed (s.writeDst (reconstructed c s.origLen))
          { resultLen := s.origLen
            consumed := c.consumed
            aux0 := c.padded % 2 ^ 32
            aux1 := c.padded / 2 ^ 32 }

end Sys2Proof.Machine
end

