-- ==== Sys2Proof/Machine/Dispatch.lean ====
section
/-! DEFINITION. exec: each command to its meaning. -/

namespace Sys2Proof.Machine

def exec (i : Instr) (s : State) : Host.Outcome State Fault Refusal :=
  match i with
  | .nop => Sys2Proof.Machine.execNop s
  | .ampMap => Sys2Proof.Machine.execAmpMap s
  | .ampUnmap => Sys2Proof.Machine.execAmpUnmap s
  | .decompose => Sys2Proof.Machine.execDecompose s
  | .chainCheck => Sys2Proof.Machine.execChainCheck s
  | .reconstruct => Sys2Proof.Machine.execReconstruct s
  | .histClear => Sys2Proof.Machine.execHistClear s
  | .histAccum => Sys2Proof.Machine.execHistAccum s
  | .buildTable => Sys2Proof.Machine.execBuildTable s
  | .tableStore => Sys2Proof.Machine.execTableStore s
  | .tableLoad => Sys2Proof.Machine.execTableLoad s
  | .encode => Sys2Proof.Machine.execEncode s
  | .decode => Sys2Proof.Machine.execDecode s
  | .hdrPack => Sys2Proof.Machine.execHdrPack s
  | .hdrParse => Sys2Proof.Machine.execHdrParse s

end Sys2Proof.Machine
end

