-- ==== Sys2Proof/Machine/Flags.lean ====
section
/-! DEFINITION. STATUS, IRQ_EN and the interrupt output as views of the state (10_state.md R28 to
R37, R53; 60_exceptions.md R258, R259). -/

namespace Sys2Proof.Machine

/-- STATUS.BUSY: 1 exactly when the engine is Busy (10_state.md R29, R52). -/
def State.isBusy (s : State) : Bool :=
  match s.engine with
  | .idle => false
  | .busy _ => true

/-- STATUS.ERR: 1 exactly when ERR_CODE is not 0 (10_state.md R31). -/
def State.err (s : State) : Bool := s.errCode != .none

/-- The STATUS word, from bit 31 down (10_state.md R28). -/
def State.statusWord (s : State) : Word :=
  s.lastOp ++ s.errDetail.bits ++ (0#4 : BitVec 4) ++ s.errCode.bits ++
    (0#1 : BitVec 1) ++ BitVec.ofBool s.hostConflict ++ BitVec.ofBool s.overrun ++
    BitVec.ofBool s.tableValid ++
    (0#1 : BitVec 1) ++ BitVec.ofBool s.err ++ BitVec.ofBool s.done ++ BitVec.ofBool s.isBusy

/-- A host write to STATUS: bits 1, 5 and 6 clear DONE, OVERRUN and HOST_CONFLICT, and every other
bit is ignored (10_state.md R36). -/
def State.writeStatus (s : State) (v : Word) : State :=
  { s with
    done := s.done && !v.getLsbD 1
    overrun := s.overrun && !v.getLsbD 5
    hostConflict := s.hostConflict && !v.getLsbD 6 }

/-- IRQ_EN: bit 0 is DONE_IE, the rest reads 0 (10_state.md R37). -/
def State.irqEnWord (s : State) : Word := (BitVec.ofBool s.doneIE).setWidth 32

/-- The interrupt output (10_state.md R53, 60_exceptions.md R258). -/
def State.irq (s : State) : Bool := s.done && s.doneIE

/-- A host access refused because the engine is Busy (10_state.md R34). -/
def State.setConflict (s : State) : State := { s with hostConflict := true }

/-- A CMD write dropped because the engine is Busy (10_state.md R33). -/
def State.setOverrun (s : State) : State := { s with overrun := true }

end Sys2Proof.Machine
end

