-- ==== Sys2Proof/Machine/Ports.lean ====
section
/-! DEFINITION. The register port and the buffer port of the host (10_state.md R21 to R58;
20_memory.md R75 to R77; 70_reset_and_hazards.md R291). -/

namespace Sys2Proof.Machine

/-! ## The register map -/

/-- The registers of 10_state.md R23. -/
inductive Reg where
  | id | version | bufSize | cmd | status | irqEn
  | srcAddr | srcLen | dstAddr | dstCap | maxRank | epsLo | epsHi | origLenLo | origLenHi
  | resultLen | consumed | aux0 | aux1
  | tsel | tlen | tfreqLo | tfreqHi
  | tcode (w : Fin 8)
deriving DecidableEq, Repr

/-- The register at an offset (10_state.md R23). A reserved offset (R21) and a misaligned one
(20_memory.md R75) reach no register. -/
def regAt (off : BitVec 8) : Option Reg :=
  match off.toNat with
  | 0x00 => some .id
  | 0x04 => some .version
  | 0x08 => some .bufSize
  | 0x0C => some .cmd
  | 0x10 => some .status
  | 0x14 => some .irqEn
  | 0x18 => some .srcAddr
  | 0x1C => some .srcLen
  | 0x20 => some .dstAddr
  | 0x24 => some .dstCap
  | 0x28 => some .maxRank
  | 0x2C => some .epsLo
  | 0x30 => some .epsHi
  | 0x34 => some .origLenLo
  | 0x38 => some .origLenHi
  | 0x3C => some .resultLen
  | 0x40 => some .consumed
  | 0x44 => some .aux0
  | 0x48 => some .aux1
  | 0x4C => some .tsel
  | 0x50 => some .tlen
  | 0x54 => some .tfreqLo
  | 0x58 => some .tfreqHi
  | 0x5C => some (.tcode 0)
  | 0x60 => some (.tcode 1)
  | 0x64 => some (.tcode 2)
  | 0x68 => some (.tcode 3)
  | 0x6C => some (.tcode 4)
  | 0x70 => some (.tcode 5)
  | 0x74 => some (.tcode 6)
  | 0x78 => some (.tcode 7)
  | _ => none

/-- The registers whose value a read while Busy does not give (10_state.md R56). -/
def regUnstable : Reg → Bool
  | .origLenLo => true
  | .origLenHi => true
  | .resultLen => true
  | .consumed => true
  | .aux0 => true
  | .aux1 => true
  | .tlen => true
  | .tfreqLo => true
  | .tfreqHi => true
  | .tcode _ => true
  | .id => false
  | .version => false
  | .bufSize => false
  | .cmd => false
  | .status => false
  | .irqEn => false
  | .srcAddr => false
  | .srcLen => false
  | .dstAddr => false
  | .dstCap => false
  | .maxRank => false
  | .epsLo => false
  | .epsHi => false
  | .tsel => false

/-- The value a register shows (10_state.md R23 to R28, R37 to R47). -/
def State.regValue (s : State) : Reg → Word
  | .id => Config.idWord
  | .version => Config.versionWord
  | .bufSize => BitVec.ofNat 32 Config.bufBytes
  | .cmd => s.cmd
  | .status => s.statusWord
  | .irqEn => s.irqEnWord
  | .srcAddr => s.srcAddr
  | .srcLen => s.srcLen
  | .dstAddr => s.dstAddr
  | .dstCap => s.dstCap
  | .maxRank => s.maxRank
  | .epsLo => s.epsLo
  | .epsHi => s.epsHi
  | .origLenLo => s.origLenLo
  | .origLenHi => s.origLenHi
  | .resultLen => s.resultLen
  | .consumed => s.consumed
  | .aux0 => s.aux0
  | .aux1 => s.aux1
  | .tsel => s.tsel.setWidth 32
  | .tlen => (s.len.entry s.tsel).setWidth 32
  | .tfreqLo => (s.freq.entry s.tsel).extractLsb' 0 32
  | .tfreqHi => (s.freq.entry s.tsel).extractLsb' 32 32
  | .tcode w => (s.code.entry s.tsel).extractLsb' (32 * w.val) 32

/-! ## Register port (20_memory.md R75) -/

/-- What the host's read returns is kept for it to see (assumption 15). -/
def State.answer (s : State) (v : BitVec 64) : State := { s with reply := some v }

/-- A read of a register (10_state.md R54 to R56): while Busy an unstable register gives an
unspecified word (U2). -/
def State.readReg (s : State) (r : Reg) : State :=
  if s.isBusy && regUnstable r then
    (s.answer ((Config.draw 32 s.draws 0).setWidth 64)).useDraw
  else s.answer ((s.regValue r).setWidth 64)

/-- `RegRead(off)`: 0 at a misaligned or reserved offset (20_memory.md R75, 10_state.md R21). -/
def State.regRead (s : State) (off : BitVec 8) : State :=
  match regAt off with
  | none => s.answer 0
  | some r => s.readReg r

/-- Store an operand or configuration register (10_state.md R57). -/
def State.storeOperand (s : State) (r : Reg) (v : Word) : State :=
  match r with
  | .srcAddr => { s with srcAddr := v }
  | .srcLen => { s with srcLen := v }
  | .dstAddr => { s with dstAddr := v }
  | .dstCap => { s with dstCap := v }
  | .maxRank => { s with maxRank := v }
  | .epsLo => { s with epsLo := v }
  | .epsHi => { s with epsHi := v }
  | .origLenLo => { s with origLenLo := v }
  | .origLenHi => { s with origLenHi := v }
  | .tsel => { s with tsel := v.extractLsb' 0 8 }
  | _ => s

/-- The registers a host write may change only while Idle (10_state.md R58). -/
def regIsOperand : Reg → Bool
  | .srcAddr => true
  | .srcLen => true
  | .dstAddr => true
  | .dstCap => true
  | .maxRank => true
  | .epsLo => true
  | .epsHi => true
  | .origLenLo => true
  | .origLenHi => true
  | .tsel => true
  | _ => false

/-- A write to a register: to CMD it issues, or is dropped with OVERRUN while Busy; to STATUS and
IRQ_EN it always acts; to an operand register it is refused with HOST_CONFLICT while Busy; to a
read-only register it has no effect (10_state.md R27, R57, R58). -/
def State.writeReg (s : State) (r : Reg) (v : Word) : State :=
  match r with
  | .cmd => if s.isBusy then s.setOverrun else s.issue v
  | .status => s.writeStatus v
  | .irqEn => { s with doneIE := v.getLsbD 0 }
  | r =>
    if regIsOperand r then
      if s.isBusy then s.setConflict else s.storeOperand r v
    else s

/-- `RegWrite(off, v)`: no effect at a misaligned or reserved offset (20_memory.md R75,
10_state.md R21). -/
def State.regWrite (s : State) (off : BitVec 8) (v : Word) : State :=
  match regAt off with
  | none => s
  | some r => s.writeReg r v

/-! ## Buffer port (20_memory.md R76, R77) -/

/-- The number of bytes of a width. -/
def Width.bytes : Width → Nat
  | .b1 => 1
  | .b2 => 2
  | .b4 => 4
  | .b8 => 8

/-- The access lies in BUF; the sum does not wrap (20_memory.md R76). -/
def bufInside (a : Word) (n : Width) : Bool := a.toNat + n.bytes ≤ Config.bufBytes

/-- `BufRead(a, n)` (20_memory.md R76, R77). -/
def State.bufRead (s : State) (a : Word) (n : Width) : State :=
  if s.isBusy then (s.answer 0).setConflict
  else if bufInside a n then
    s.answer (BitVec.ofNat 64 (leNat (s.readBytes a.toNat n.bytes)))
  else s.answer 0

/-- `BufWrite(a, n, v)`: byte `i` of `v` goes to `BUF[a + i]` (20_memory.md R76, R77). DESIGN CHOICE
(assumption 24): R76 gives `v` as an `n`-byte value and says nothing of a wider one; here every width
takes a 64-bit `v`, of which the low `n` bytes are stored and the rest are not used. -/
def State.bufWrite (s : State) (a : Word) (n : Width) (v : BitVec 64) : State :=
  if s.isBusy then s.setConflict
  else if bufInside a n then s.writeBytes a.toNat (leBytes n.bytes v.toNat)
  else s

/-- One host transaction. -/
def State.hostTxn (s : State) : HostTxn → State
  | .regRead off => s.regRead off
  | .regWrite off v => s.regWrite off v
  | .bufRead a n => s.bufRead a n
  | .bufWrite a n v => s.bufWrite a n v

/-- The offset of STATUS (10_state.md R23). -/
def statusOffset : BitVec 8 := 0x10#8

/-- The offset of CMD (10_state.md R23). -/
def cmdOffset : BitVec 8 := 0x0C#8

end Sys2Proof.Machine
end

