-- ==== Sys2Proof/Machine/Turns.lean ====
section
/-! DEFINITION. What each move does: the engine's completion, the platform reset, and the host's WAIT
and CHECK (60_exceptions.md R254; 70_reset_and_hazards.md R280; 30_encoding.md R111). -/

namespace Sys2Proof.Machine

/-- The completion step of command word `w`: a legal word runs its command, an illegal one completes
with ILLEGAL_CMD (60_exceptions.md R254, 30_encoding.md R103). -/
def completeWord (w : Word) (s : State) : Host.Outcome State Fault Refusal :=
  match decodeWord w with
  | .ok i => exec i s
  | .error e => .next (s.completeFailure (illegalError e))

/-- The engine's move: its one enabled step when Busy, none when Idle (60_exceptions.md R254). -/
def engineStep (s : State) : Host.Outcome State Fault Refusal :=
  match s.engine with
  | .idle => .next s
  | .busy w => completeWord w s

/-- Reset asserted and released: the reset state, with new unspecified BUF bytes; a Busy command is
abandoned (70_reset_and_hazards.md R280, R281). The agenda and the draw counter are the model's own
and go on (assumption 13). -/
def platformReset (s : State) : State :=
  { State.reset with
    bufSeed := s.draws
    draws := s.draws + 1
    agenda := s.agenda }

/-- WAIT: read STATUS; if BUSY is 1 the engine moves and the host polls again
(30_encoding.md R111). -/
def hostWait (s : State) : State :=
  let polled := s.regRead statusOffset
  if s.isBusy then { polled with agenda := .engine :: .wait :: s.agenda } else polled

/-- The moves that are the host program's, and so end with it. -/
def turnOfHost : Turn → Bool
  | .host _ => true
  | .wait => true
  | .check => true
  | .engine => false
  | .reset => false

/-- CHECK: read STATUS and stop the program if ERR is 1: no move of the host's is left
(30_encoding.md R111). -/
def hostCheck (s : State) : State :=
  let polled := s.regRead statusOffset
  if s.err then { polled with agenda := s.agenda.filter fun t => !turnOfHost t } else polled

end Sys2Proof.Machine
end

