-- ==== Sys2Proof/Machine/Step.lean ====
section
/-! DEFINITION. One step of the block: one host transaction, one completion, or one platform reset
(60_exceptions.md R254, R257; 70_reset_and_hazards.md R280). -/

namespace Sys2Proof.Machine

/-- One step. The next move on the agenda is taken; with none left, a Busy engine completes
(assumptions 2, 12), and an Idle block stays as it is. -/
def step (s : State) : Host.Outcome State Fault Refusal :=
  match s.agenda with
  | [] => engineStep s
  | t :: ts =>
    let s' := { s with agenda := ts }
    match t with
    | .host x => .next (s'.hostTxn x)
    | .engine => engineStep s'
    | .reset => .next (platformReset s')
    | .wait => .next (hostWait s')
    | .check => .next (hostCheck s')

/-- `s` with the command word `w` just issued (30_encoding.md R100) and the completion as the next
move: the block fetches no instruction, the word it runs is the one the engine is Busy with
(20_memory.md R85; assumption 3). Bits of `w` from `nbits` up are dropped. -/
def State.withFetchWord (s : State) (nbits w : Nat) : State :=
  { s.issue (BitVec.ofNat 32 (w % 2 ^ nbits)) with agenda := [] }

end Sys2Proof.Machine
end

