-- ==== Sys2Proof/Machine/HostAsm.lean ====
section
/-! DEFINITION. The host assembly of 30_encoding.md R110 and its pseudo-instructions R111, each
expanded to the moves it puts on the agenda. -/

namespace Sys2Proof.Machine

/-- The offset of a register the assembly can name (10_state.md R23). -/
def regOffset : Reg → BitVec 8
  | .id => 0x00
  | .version => 0x04
  | .bufSize => 0x08
  | .cmd => 0x0C
  | .status => 0x10
  | .irqEn => 0x14
  | .srcAddr => 0x18
  | .srcLen => 0x1C
  | .dstAddr => 0x20
  | .dstCap => 0x24
  | .maxRank => 0x28
  | .epsLo => 0x2C
  | .epsHi => 0x30
  | .origLenLo => 0x34
  | .origLenHi => 0x38
  | .resultLen => 0x3C
  | .consumed => 0x40
  | .aux0 => 0x44
  | .aux1 => 0x48
  | .tsel => 0x4C
  | .tlen => 0x50
  | .tfreqLo => 0x54
  | .tfreqHi => 0x58
  | .tcode w => BitVec.ofNat 8 (0x5C + 4 * w.val)

/-- One line of host assembly (30_encoding.md R110, R111). -/
inductive AsmOp where
  /-- `WR reg, v`. -/
  | wr (r : Reg) (v : Word)
  /-- `RD reg`. -/
  | rd (r : Reg)
  /-- `BUFW a, n, v`; of a `v` wider than `n` bytes the low `n` bytes count (DESIGN CHOICE, assumption
  24). -/
  | bufw (a : Word) (n : Width) (v : BitVec 64)
  /-- `BUFR a, n`. -/
  | bufr (a : Word) (n : Width)
  /-- `<MNEMONIC>`. -/
  | op (i : Instr)
  /-- `CMD w`. -/
  | cmd (w : Word)
  /-- `WAIT`. -/
  | wait
  /-- `RUN op`. -/
  | run (i : Instr)
  /-- `SET a, n, d, c`. -/
  | set (a n d c : Word)
  /-- `CALL op a, n, d, c`. -/
  | call (i : Instr) (a n d c : Word)
  /-- `WR64 ORIG_LEN, v`. -/
  | wrOrigLen (v : BitVec 64)
  /-- `WR64 EPS, bits`. -/
  | wrEps (v : F64)
  /-- `ACK`. -/
  | ack
  /-- `BUFBYTES a, b0 b1 ... bk`. -/
  | bufBytes (a : Word) (bs : List Byte)
  /-- `CHECK`. -/
  | check
deriving DecidableEq, Repr

/-- A register write as a move. -/
def wrTurn (r : Reg) (v : Word) : Turn := .host (.regWrite (regOffset r) v)

/-- `SET a, n, d, c` (R111). -/
def setTurns (a n d c : Word) : List Turn :=
  [wrTurn .srcAddr a, wrTurn .srcLen n, wrTurn .dstAddr d, wrTurn .dstCap c]

/-- `BUFBYTES a, bs` (R111). DESIGN CHOICE (assumption 23): the spec does not say what the expansion is
where an address `a + i` passes 2^32 - 1; here the address does not wrap, and the bytes from there on
give no transaction. -/
def bufBytesTurns (a : Word) : List Byte → List Turn
  | [] => []
  | b :: bs =>
    .host (.bufWrite a .b1 (b.setWidth 64)) ::
      if a = 0xFFFFFFFF#32 then [] else bufBytesTurns (a + 1) bs

/-- `op` as a move: a write of its command word to CMD (R110). -/
def opTurn (i : Instr) : Turn := .host (.regWrite cmdOffset (encodeWord i))

/-- The moves a line of host assembly stands for (30_encoding.md R110, R111). -/
def AsmOp.expand : AsmOp → List Turn
  | .wr r v => [wrTurn r v]
  | .rd r => [.host (.regRead (regOffset r))]
  | .bufw a n v => [.host (.bufWrite a n v)]
  | .bufr a n => [.host (.bufRead a n)]
  | .op i => [opTurn i]
  | .cmd w => [.host (.regWrite cmdOffset w)]
  | .wait => [.wait]
  | .run i => [opTurn i, .wait]
  | .set a n d c => setTurns a n d c
  | .call i a n d c => setTurns a n d c ++ [opTurn i, .wait]
  | .wrOrigLen v => [wrTurn .origLenLo (v.extractLsb' 0 32), wrTurn .origLenHi (v.extractLsb' 32 32)]
  | .wrEps v => [wrTurn .epsLo (v.extractLsb' 0 32), wrTurn .epsHi (v.extractLsb' 32 32)]
  | .ack => [wrTurn .status 0x62#32]
  | .bufBytes a bs => bufBytesTurns a bs
  | .check => [.check]

/-- Put a host program after the moves already on the agenda. -/
def State.withProgram (s : State) (p : List AsmOp) : State :=
  { s with agenda := s.agenda ++ p.flatMap AsmOp.expand }

end Sys2Proof.Machine
end

