-- ==== Sys2Proof/Safety.lean ====
section
/-! DEFINITION. The terms claims are stated in: when a command's operands are legal, what a
completion leaves, what stays unchanged, and the invariants of the block. -/

namespace Sys2Proof.Machine

/-! ## Operands -/

/-- The source range lies in BUF (30_encoding.md R105). -/
abbrev SrcInside (s : State) : Prop := s.srcAddr.toNat + s.srcLen.toNat ≤ Config.bufBytes

/-- The destination range lies in BUF (30_encoding.md R105). -/
abbrev DstInside (s : State) : Prop := s.dstAddr.toNat + s.dstCap.toNat ≤ Config.bufBytes

/-- The two ranges do not intersect, or one is empty (30_encoding.md R105). -/
abbrev RangesApart (s : State) : Prop :=
  s.srcLen.toNat = 0 ∨ s.dstCap.toNat = 0 ∨
    s.dstAddr.toNat + s.dstCap.toNat ≤ s.srcAddr.toNat ∨
    s.srcAddr.toNat + s.srcLen.toNat ≤ s.dstAddr.toNat

/-! ## What a completion leaves (60_exceptions.md R255) -/

/-- `t` is the completion of a command that succeeded with the results `r`, none of them
truncated. -/
structure Succeeded (t : State) (r : Results) : Prop where
  idle : t.engine = .idle
  done : t.done = true
  code : t.errCode = .none
  detail : t.errDetail = .none
  resultLen : t.resultLen.toNat = r.resultLen
  consumed : t.consumed.toNat = r.consumed
  aux0 : t.aux0.toNat = r.aux0
  aux1 : t.aux1.toNat = r.aux1

/-- `t` is the completion of a command that failed with `e`. -/
structure Failed (t : State) (e : CmdError) : Prop where
  idle : t.engine = .idle
  done : t.done = true
  code : t.errCode = e.code
  detail : t.errDetail = e.detail
  resultLen : t.resultLen = 0
  consumed : t.consumed = 0
  aux0 : t.aux0 = 0
  aux1 : t.aux1 = 0

/-! ## What stays unchanged -/

/-- Every register no command writes, the other STATUS fields, and the model's own fields but the
draw counter. -/
structure HostRegsKept (s t : State) : Prop where
  cmd : t.cmd = s.cmd
  lastOp : t.lastOp = s.lastOp
  overrun : t.overrun = s.overrun
  hostConflict : t.hostConflict = s.hostConflict
  doneIE : t.doneIE = s.doneIE
  srcAddr : t.srcAddr = s.srcAddr
  srcLen : t.srcLen = s.srcLen
  dstAddr : t.dstAddr = s.dstAddr
  dstCap : t.dstCap = s.dstCap
  maxRank : t.maxRank = s.maxRank
  epsLo : t.epsLo = s.epsLo
  epsHi : t.epsHi = s.epsHi
  tsel : t.tsel = s.tsel
  bufSeed : t.bufSeed = s.bufSeed
  agenda : t.agenda = s.agenda
  reply : t.reply = s.reply

/-- ORIG_LEN is unchanged. -/
abbrev OrigLenKept (s t : State) : Prop :=
  t.origLenLo = s.origLenLo ∧ t.origLenHi = s.origLenHi

/-- FREQ is unchanged. -/
abbrev FreqKept (s t : State) : Prop := t.freq = s.freq

/-- LEN, CODE and TABLE_VALID are unchanged. -/
abbrev CodesKept (s t : State) : Prop :=
  t.len = s.len ∧ t.code = s.code ∧ t.tableValid = s.tableValid

/-- Every byte of BUF reads as before. -/
def MemoryKept (s t : State) : Prop := ∀ a, t.readByte a = s.readByte a

/-- Every byte of BUF outside `[a, a + n)` reads as before. -/
def MemoryKeptOutside (s t : State) (a n : Nat) : Prop :=
  ∀ x, x < a ∨ a + n ≤ x → t.readByte x = s.readByte x

/-- The bytes `bs` stand in BUF from address `a`. -/
def MemoryHolds (t : State) (a : Nat) (bs : List Byte) : Prop := t.readBytes a bs.length = bs

/-- Nothing but the completion fields changed: no BUF byte, no table, not ORIG_LEN. -/
structure OnlyCompletion (s t : State) : Prop where
  regs : HostRegsKept s t
  origLen : OrigLenKept s t
  freq : FreqKept s t
  codes : CodesKept s t
  memory : MemoryKept s t
  draws : t.draws = s.draws

/-- The command stored `bs` at the start of its destination range and changed nothing else but the
completion fields. -/
structure OnlyStored (s t : State) (bs : List Byte) : Prop where
  regs : HostRegsKept s t
  origLen : OrigLenKept s t
  freq : FreqKept s t
  codes : CodesKept s t
  stored : MemoryHolds t s.dstAddr.toNat bs
  memory : MemoryKeptOutside s t s.dstAddr.toNat bs.length
  draws : t.draws = s.draws

/-! ## Error classes (60_exceptions.md R252) -/

/-- The execution errors that leave the destination range unspecified. -/
def scramblesDst : Instr → ErrDetail → Bool
  | .decompose, .outCap => true
  | .encode, .symbolUncoded => true
  | .encode, .outCap => true
  | .decode, .noCode => true
  | .decode, .bitsExhausted => true
  | _, _ => false

/-- The execution error that leaves FREQ unspecified. -/
def scramblesFreq : Instr → ErrDetail → Bool
  | .histAccum, .freqOverflow => true
  | _, _ => false

/-- The execution error that leaves LEN and CODE unspecified and clears TABLE_VALID. -/
def scramblesCodes : Instr → ErrDetail → Bool
  | .tableLoad, .tableOversub => true
  | _, _ => false

/-- The pairs of error code and detail the block writes (60_exceptions.md R251). -/
def errPairLegal : ErrCode → ErrDetail → Bool
  | .none, .none => true
  | .illegalCmd, d => d == .badOpcode || d == .reservedBits
  | .badRange, d =>
    d == .srcRange || d == .dstRange || d == .overlap || d == .outCap || d == .lenAlign
  | .tensorDecomposition, d => d == .rankZero || d == .emptyInput || d == .workLimit
  | .huffmanEncoding, d => d == .noTable || d == .symbolUncoded || d == .freqOverflow
  | .decompressionFailed, d =>
    d == .workLimit || d == .noTable || d == .hdrTruncated || d == .badMagic ||
      d == .badVersion || d == .tableTruncated || d == .tableLength || d == .tableOversub ||
      d == .payloadTruncated || d == .bitsExhausted || d == .noCode || d == .chainTruncated ||
      d == .chainShape || d == .physDim || d == .origLen
  | _, _ => false

/-! ## Chains (42_tensor_train.md R163, R164) -/

/-- `bonds` and the first tensors `ts` of a chain of `tc` tensors pass the checks of R163 and R164:
there are `tc - 1` bonds, each in 1..256, and each tensor has a legal shape and all its entries. -/
structure LegalTensors (tc : Nat) (bonds : List Nat) (ts : List CMat) : Prop where
  positive : 1 ≤ tc
  count : bonds.length = tc - 1
  bondRange : ∀ b ∈ bonds, 1 ≤ b ∧ b ≤ 256
  shapes : ∀ (i : Nat) (h : i < ts.length), legalShape tc bonds i ts[i].rows ts[i].cols = true
  entries : ∀ t ∈ ts, t.entries.length = t.rows * t.cols

/-! ## Invariants -/

/-- A valid Huffman table (10_state.md R49). -/
structure TableInvariant (l : Table (BitVec 8)) (c : Table (BitVec 255)) : Prop where
  /-- `CODE[s] < 2^LEN[s]`. -/
  fits : ∀ s, (c.entry s).toNat < 2 ^ (l.entry s).toNat
  /-- `CODE[s] = 0` when `LEN[s] = 0`. -/
  uncoded : ∀ s, l.entry s = 0 → c.entry s = 0
  /-- The Kraft sum is at most 1. -/
  kraft : kraftSum l ≤ 2 ^ 255
  /-- The codes are pairwise distinct and none is a prefix of another. -/
  prefixFree : ∀ s t, l.entry s ≠ 0 → l.entry t ≠ 0 →
    codeString l c s <+: codeString l c t → s = t
  /-- CODE is `canonical(LEN)`. -/
  canonical : c = canonical l

/-- BUF is in canonical form and lists only addresses that exist (20_memory.md R70). -/
structure MemoryInvariant (s : State) : Prop where
  canonical : Memory.wf s.buf
  inside : ∀ c ∈ s.buf, c.1 < Config.bufBytes

/-- Whenever TABLE_VALID is 1 the tables are valid (10_state.md R49). -/
def TablesInvariant (s : State) : Prop := s.tableValid = true → TableInvariant s.len s.code

/-- What STATUS, CMD and the result registers say of one another (10_state.md R30, R31, R35, R43,
R52). -/
structure StatusInvariant (s : State) : Prop where
  /-- LAST_OP is bits 7:0 of CMD. -/
  lastOp : s.lastOp = opByte s.cmd
  /-- A Busy engine runs the word in CMD, with DONE and the error fields cleared. -/
  busy : ∀ w, s.engine = .busy w →
    s.cmd = w ∧ s.done = false ∧ s.errCode = .none ∧ s.errDetail = .none
  /-- Each detail stands with its code. -/
  pair : errPairLegal s.errCode s.errDetail = true
  /-- A failed command leaves every result register 0. -/
  results : s.errCode ≠ .none →
    s.resultLen = 0 ∧ s.consumed = 0 ∧ s.aux0 = 0 ∧ s.aux1 = 0

/-! ## Runs -/

/-- The run of the host's program is over (70_reset_and_hazards.md R290). -/
def State.runOver (s : State) : Bool := (s.agenda.all fun t => !turnOfHost t) && !s.isBusy

end Sys2Proof.Machine
end

