-- ==== Sys2Proof/Certificates/Slice0/Obligations.lean ====
section
/-! DEFINITION. The statements about the model. Each docstring names the rule of spec/ it rests on;
the terms are those of Safety.lean. A statement that answers `exec i s = .next t` gives the whole
frame of the instruction. -/

open Sys2Proof Sys2Proof.Machine

/-! ## Command words (30_encoding.md) -/

/-- 30_encoding.md R108: the encoded words of the 15 commands are the only legal ones. -/
def Obligations.DecodeNamesExactlyTheEncodedWords : Prop :=
  ∀ (w : Word) (i : Instr), decodeWord w = .ok i ↔ w = encodeWord i

/-- 30_encoding.md R102: the 15 command words written out from the opcode map. -/
def Obligations.OpcodeMapWordsDecode : Prop :=
  decodeWord 0x00000000#32 = .ok .nop ∧ decodeWord 0x00000001#32 = .ok .ampMap ∧
  decodeWord 0x00000002#32 = .ok .ampUnmap ∧ decodeWord 0x00000003#32 = .ok .decompose ∧
  decodeWord 0x00000004#32 = .ok .chainCheck ∧ decodeWord 0x00000005#32 = .ok .reconstruct ∧
  decodeWord 0x00000006#32 = .ok .histClear ∧ decodeWord 0x00000007#32 = .ok .histAccum ∧
  decodeWord 0x00000008#32 = .ok .buildTable ∧ decodeWord 0x00000009#32 = .ok .tableStore ∧
  decodeWord 0x0000000A#32 = .ok .tableLoad ∧ decodeWord 0x0000000B#32 = .ok .encode ∧
  decodeWord 0x0000000C#32 = .ok .decode ∧ decodeWord 0x0000000D#32 = .ok .hdrPack ∧
  decodeWord 0x0000000E#32 = .ok .hdrParse

/-- 30_encoding.md R103: an illegal word written to CMD while Idle is issued, and its completion
reports BAD_OPCODE when the opcode is reserved, else RESERVED_BITS, and touches nothing else. -/
def Obligations.IllegalWordIsIssuedAndFails : Prop :=
  ∀ (s : State) (w : Word) (ts : List Turn), s.isBusy = false →
    s.agenda = .host (.regWrite 0x0C#8 w) :: .engine :: ts →
    (0x0F ≤ w.toNat % 256 →
      ∃ t, core.run 2 s = .next t ∧ Failed t ⟨.illegalCmd, .badOpcode⟩ ∧
        OnlyCompletion { s with cmd := w, lastOp := opByte w, agenda := ts } t) ∧
    (w.toNat % 256 < 0x0F → w.toNat / 256 ≠ 0 →
      ∃ t, core.run 2 s = .next t ∧ Failed t ⟨.illegalCmd, .reservedBits⟩ ∧
        OnlyCompletion { s with cmd := w, lastOp := opByte w, agenda := ts } t)

/-- 60_exceptions.md R254, R257 and assumption 2: a step is the next move. With no move left, or at
the engine's move, a Busy engine runs the command its word decodes to, and one whose word is illegal
completes with the error of 30_encoding.md R103; at a host's move, the host's transaction takes effect;
at the host's CHECK, STATUS is read, and on ERR the moves of the host's that are left go; an Idle block
with no move left stays as it is. The list of moves, the completion when it is empty, and what
CHECK takes off the list are the model's choices (assumptions 2, 12 and 21). Reset and WAIT have
statements of their own, PlatformResetAbandonsCommand and WaitEndsWithEngineIdle. -/
def Obligations.StepTakesTheNextMove : Prop :=
  (∀ (s : State) (w : Word) (i : Instr), s.agenda = [] → s.engine = .busy w →
    decodeWord w = .ok i → step s = exec i s) ∧
  (∀ (s : State) (w : Word) (i : Instr) (ts : List Turn), s.agenda = .engine :: ts →
    s.engine = .busy w → decodeWord w = .ok i → step s = exec i { s with agenda := ts }) ∧
  (∀ (s : State) (w : Word) (ts : List Turn), s.engine = .busy w →
    (s.agenda = [] ∧ ts = []) ∨ s.agenda = .engine :: ts →
    (0x0F ≤ w.toNat % 256 →
      ∃ t, step s = .next t ∧ Failed t ⟨.illegalCmd, .badOpcode⟩ ∧
        OnlyCompletion { s with agenda := ts } t) ∧
    (w.toNat % 256 < 0x0F → w.toNat / 256 ≠ 0 →
      ∃ t, step s = .next t ∧ Failed t ⟨.illegalCmd, .reservedBits⟩ ∧
        OnlyCompletion { s with agenda := ts } t)) ∧
  (∀ (s : State) (x : HostTxn) (ts : List Turn), s.agenda = .host x :: ts →
    step s = .next (State.hostTxn { s with agenda := ts } x)) ∧
  (∀ (s : State) (ts : List Turn), s.agenda = .check :: ts →
    step s = .next
      { s with
        agenda := if s.errCode = .none then ts else ts.filter fun m => !turnOfHost m
        reply := some (s.statusWord.setWidth 64) }) ∧
  (∀ s : State, s.agenda = [] → s.engine = .idle → step s = .next s)

/-! ## Registers and the host's ports (10_state.md, 20_memory.md) -/

/-- 10_state.md R27 and R35: a CMD write while Idle stores and issues the word, with LAST_OP its bits
7:0; while Busy it only sets OVERRUN; a read returns the last word stored, 0 after reset. -/
def Obligations.CmdRegisterIssuesOrOverruns : Prop :=
  (∀ (s : State) (w : Word), s.isBusy = false →
    s.regWrite 0x0C#8 w =
      { s with
        cmd := w, engine := .busy w, done := false, errCode := .none, errDetail := .none
        lastOp := w.extractLsb' 0 8 }) ∧
  (∀ (s : State) (w : Word), s.isBusy = true →
    s.regWrite 0x0C#8 w = { s with overrun := true }) ∧
  (∀ s : State, s.regRead 0x0C#8 = { s with reply := some (s.cmd.setWidth 64) }) ∧
  State.reset.cmd = 0

/-- 10_state.md R28: the place of every field in the STATUS word; reserved bits read 0. And the numbers
of the error codes and details (60_exceptions.md R250, R251). -/
def Obligations.StatusWordFieldPlaces : Prop :=
  (∀ s : State,
    s.statusWord.getLsbD 0 = s.isBusy ∧ s.statusWord.getLsbD 1 = s.done ∧
    s.statusWord.getLsbD 2 = decide (s.errCode ≠ .none) ∧ s.statusWord.getLsbD 3 = false ∧
    s.statusWord.getLsbD 4 = s.tableValid ∧ s.statusWord.getLsbD 5 = s.overrun ∧
    s.statusWord.getLsbD 6 = s.hostConflict ∧ s.statusWord.getLsbD 7 = false ∧
    s.statusWord.extractLsb' 8 4 = s.errCode.bits ∧ s.statusWord.extractLsb' 12 4 = 0 ∧
    s.statusWord.extractLsb' 16 8 = s.errDetail.bits ∧ s.statusWord.extractLsb' 24 8 = s.lastOp) ∧
  ([.none, .illegalCmd, .badRange, .tensorDecomposition, .huffmanEncoding,
      .decompressionFailed].map ErrCode.bits = [0#4, 1#4, 2#4, 3#4, 4#4, 5#4]) ∧
  ([.none, .badOpcode, .reservedBits].map ErrDetail.bits = [0x00#8, 0x01#8, 0x02#8]) ∧
  ([.srcRange, .dstRange, .overlap, .outCap, .lenAlign].map ErrDetail.bits =
    [0x10#8, 0x11#8, 0x12#8, 0x13#8, 0x14#8]) ∧
  ([.rankZero, .emptyInput, .workLimit].map ErrDetail.bits = [0x20#8, 0x21#8, 0x22#8]) ∧
  ([.noTable, .symbolUncoded, .freqOverflow].map ErrDetail.bits = [0x30#8, 0x31#8, 0x32#8]) ∧
  ([.hdrTruncated, .badMagic, .badVersion, .tableTruncated, .tableLength, .tableOversub,
      .payloadTruncated].map ErrDetail.bits =
    [0x40#8, 0x41#8, 0x42#8, 0x43#8, 0x44#8, 0x45#8, 0x46#8]) ∧
  ([.bitsExhausted, .noCode, .chainTruncated, .chainShape, .physDim, .origLen].map ErrDetail.bits =
    [0x47#8, 0x48#8, 0x49#8, 0x4A#8, 0x4B#8, 0x4C#8])

/-- 10_state.md R36 and R37: a STATUS write clears DONE, OVERRUN and HOST_CONFLICT by bits 1, 5 and 6
and nothing else; an IRQ_EN write stores bit 0 and nothing else, and its other bits read 0; both are
accepted Busy or not, and DONE_IE is 0 after reset. R53 and 60_exceptions.md R259: in every state the
interrupt output is DONE and DONE_IE, so that a STATUS write with bit 1 set, an issue, and an IRQ_EN
write with bit 0 clear each drop it. -/
def Obligations.StatusAndIrqEnWrites : Prop :=
  (∀ (s : State) (v : Word), s.regWrite 0x10#8 v =
    { s with
      done := if v.getLsbD 1 then false else s.done
      overrun := if v.getLsbD 5 then false else s.overrun
      hostConflict := if v.getLsbD 6 then false else s.hostConflict }) ∧
  (∀ s : State, s.regRead 0x10#8 = { s with reply := some (s.statusWord.setWidth 64) }) ∧
  (∀ (s : State) (v : Word), s.regWrite 0x14#8 v = { s with doneIE := v.getLsbD 0 }) ∧
  (∀ (s : State) (k : Nat), 1 ≤ k → (s.regValue .irqEn).getLsbD k = false) ∧
  (∀ s : State, (s.regValue .irqEn).getLsbD 0 = s.doneIE) ∧ State.reset.doneIE = false ∧
  (∀ s : State, s.irq = true ↔ s.done = true ∧ s.doneIE = true) ∧
  (∀ (s : State) (v : Word), v.getLsbD 1 = true → (s.regWrite 0x10#8 v).irq = false) ∧
  (∀ (s : State) (w : Word), s.isBusy = false →
    (s.regWrite 0x0C#8 w).done = false ∧ (s.regWrite 0x0C#8 w).irq = false) ∧
  (∀ (s : State) (v : Word), v.getLsbD 0 = false → (s.regWrite 0x14#8 v).irq = false)

/-- 10_state.md R57 (operand and read-only registers): an Idle write to an operand register makes it
read the value written (TSEL: its bits 7:0), and no other register changes but the readback of a newly
selected symbol; BUF and the tables are unchanged. An Idle write to a read-only register has no
effect. -/
def Obligations.IdleWriteStoresOperand : Prop :=
  (∀ (s : State) (r : Reg) (v : Word), regIsOperand r = true → s.isBusy = false →
    (s.regWrite (regOffset r) v).regValue r = (if r = .tsel then v &&& 0xFF#32 else v) ∧
    (∀ q : Reg, q ≠ r →
      r ≠ .tsel ∨ (q ≠ .tlen ∧ q ≠ .tfreqLo ∧ q ≠ .tfreqHi ∧ ∀ w, q ≠ .tcode w) →
      (s.regWrite (regOffset r) v).regValue q = s.regValue q) ∧
    MemoryKept s (s.regWrite (regOffset r) v) ∧ (s.regWrite (regOffset r) v).buf = s.buf ∧
    (s.regWrite (regOffset r) v).freq = s.freq ∧
    (s.regWrite (regOffset r) v).len = s.len ∧ (s.regWrite (regOffset r) v).code = s.code ∧
    (s.regWrite (regOffset r) v).engine = s.engine) ∧
  (∀ (s : State) (r : Reg) (v : Word), s.isBusy = false → regIsOperand r = false → r ≠ .cmd →
    r ≠ .status → r ≠ .irqEn → s.regWrite (regOffset r) v = s)

/-- 10_state.md R58: what a register write does while Busy, for every offset. -/
def Obligations.BusyWriteIsRefused : Prop :=
  ∀ (s : State) (off : BitVec 8) (v : Word), s.isBusy = true →
    (∀ r, regAt off = some r → regIsOperand r = true →
      s.regWrite off v = { s with hostConflict := true }) ∧
    (regAt off = some .cmd → s.regWrite off v = { s with overrun := true }) ∧
    (regAt off = some .irqEn → s.regWrite off v = { s with doneIE := v.getLsbD 0 }) ∧
    (regAt off = some .status → s.regWrite off v = s.writeStatus v) ∧
    (∀ r, regAt off = some r → regIsOperand r = false → r ≠ .cmd → r ≠ .irqEn → r ≠ .status →
      s.regWrite off v = s) ∧
    (regAt off = none → s.regWrite off v = s)

/-- 10_state.md R54, R55 and R56: a register read answers the register's value and changes nothing
else; while Busy, an unstable register answers some 32-bit word, and no flag is set (the model's draw
counter moves on). -/
def Obligations.RegisterReadAnswers : Prop :=
  ∀ (s : State) (r : Reg),
    (s.isBusy = false ∨ regUnstable r = false →
      s.regRead (regOffset r) = { s with reply := some ((s.regValue r).setWidth 64) }) ∧
    (s.isBusy = true → regUnstable r = true →
      ∃ v : Word, s.regRead (regOffset r) =
        { s with reply := some (v.setWidth 64), draws := s.draws + 1 })

/-- 10_state.md R21 and 20_memory.md R75: each register answers at its own offset only; at every
other offset, misaligned or reserved, a read gives 0 and a write has no effect, Busy or not. -/
def Obligations.RegisterMapIsExact : Prop :=
  (∀ (off : BitVec 8) (r : Reg), regAt off = some r ↔ off = regOffset r) ∧
  (∀ (s : State) (off : BitVec 8) (v : Word), off.toNat % 4 ≠ 0 ∨ 0x7C ≤ off.toNat →
    s.regRead off = { s with reply := some 0 } ∧ s.regWrite off v = s)

/-- 10_state.md R45, R46 and R47: the readback registers show the entries TSEL selects. -/
def Obligations.ReadbackShowsSelectedEntry : Prop :=
  ∀ s : State,
    (s.regValue .tlen).toNat = (s.len.entry s.tsel).toNat ∧
    (s.regValue .tfreqLo).toNat = (s.freq.entry s.tsel).toNat % 2 ^ 32 ∧
    (s.regValue .tfreqHi).toNat = (s.freq.entry s.tsel).toNat / 2 ^ 32 ∧
    (∀ w : Fin 8, (s.regValue (.tcode w)).toNat =
      (s.code.entry s.tsel).toNat / 2 ^ (32 * w.val) % 2 ^ 32) ∧
    (s.regValue (.tcode 7)).getLsbD 31 = false

/-- 20_memory.md R76 and R77: the buffer port moves little-endian values at any alignment while Idle
and inside BUF; outside BUF a read gives 0 and a write has no effect; while Busy every access is
refused and sets HOST_CONFLICT. That a value wider than the access is stored by its low bytes is the
model's choice (assumption 24); R76 has values of the access's width only. -/
def Obligations.BufferPortAccess : Prop :=
  ∀ (s : State) (a : Word) (n : Width) (v : BitVec 64),
    (s.isBusy = false → a.toNat + n.bytes ≤ Config.bufBytes →
      (∀ i, i < n.bytes → (s.bufWrite a n v).readByte (a.toNat + i) = v.extractLsb' (8 * i) 8) ∧
      MemoryKeptOutside s (s.bufWrite a n v) a.toNat n.bytes ∧
      s.bufWrite a n v = { s with buf := (s.bufWrite a n v).buf } ∧
      ∃ x : BitVec 64, s.bufRead a n = { s with reply := some x } ∧ x.toNat < 256 ^ n.bytes ∧
        ∀ i, i < n.bytes → x.extractLsb' (8 * i) 8 = s.readByte (a.toNat + i)) ∧
    (s.isBusy = false → Config.bufBytes < a.toNat + n.bytes →
      s.bufWrite a n v = s ∧ s.bufRead a n = { s with reply := some 0 }) ∧
    (s.isBusy = true →
      s.bufWrite a n v = { s with hostConflict := true } ∧
      s.bufRead a n = { s with reply := some 0, hostConflict := true })

/-- 20_memory.md R79 and R82: while Busy no host transaction changes what the command reads or
writes: BUF, the tables, the operands, the results, the command itself. -/
def Obligations.BusyHostCannotDisturbCommand : Prop :=
  ∀ (s : State) (x : HostTxn), s.isBusy = true →
    (s.hostTxn x).buf = s.buf ∧ (s.hostTxn x).bufSeed = s.bufSeed ∧
    (s.hostTxn x).freq = s.freq ∧ CodesKept s (s.hostTxn x) ∧ OrigLenKept s (s.hostTxn x) ∧
    (s.hostTxn x).srcAddr = s.srcAddr ∧ (s.hostTxn x).srcLen = s.srcLen ∧
    (s.hostTxn x).dstAddr = s.dstAddr ∧ (s.hostTxn x).dstCap = s.dstCap ∧
    (s.hostTxn x).maxRank = s.maxRank ∧ (s.hostTxn x).eps = s.eps ∧
    (s.hostTxn x).resultLen = s.resultLen ∧ (s.hostTxn x).consumed = s.consumed ∧
    (s.hostTxn x).aux0 = s.aux0 ∧ (s.hostTxn x).aux1 = s.aux1 ∧
    (s.hostTxn x).cmd = s.cmd ∧ (s.hostTxn x).engine = s.engine ∧
    (s.hostTxn x).lastOp = s.lastOp ∧ (s.hostTxn x).errCode = s.errCode ∧
    (s.hostTxn x).errDetail = s.errDetail

/-! ## Reset and WAIT (70_reset_and_hazards.md, 30_encoding.md) -/

/-- 10_state.md R59: every register's value after reset, the tables zero, the engine Idle, no
interrupt. BUF is unspecified, so nothing is said of it. -/
def Obligations.ResetStateValues : Prop :=
  (∀ r : Reg, r ≠ .id → r ≠ .version → r ≠ .bufSize → r ≠ .maxRank →
    State.reset.regValue r = 0) ∧
  State.reset.regValue .id = 0x504D4351#32 ∧ State.reset.regValue .version = 0x00000101#32 ∧
  (State.reset.regValue .bufSize).toNat = Config.bufBytes ∧
  State.reset.regValue .maxRank = 64#32 ∧
  (∀ x : Byte, State.reset.freq.entry x = 0 ∧ State.reset.len.entry x = 0 ∧
    State.reset.code.entry x = 0) ∧
  State.reset.tableValid = false ∧ State.reset.engine = .idle ∧ State.reset.irq = false

/-- 70_reset_and_hazards.md R281: a reset, Busy or not, gives the reset state; only the model's own
bookkeeping (which draw BUF holds, the draw counter, the moves still to come) differs, which is the
model's choice (assumption 13). -/
def Obligations.PlatformResetAbandonsCommand : Prop :=
  ∀ (s : State) (ts : List Turn), s.agenda = .reset :: ts →
    ∃ t, step s = .next t ∧
      t = { State.reset with bufSeed := t.bufSeed, draws := t.draws, agenda := ts }

/-- 30_encoding.md R111 with 60_exceptions.md R254: WAIT ends, at once when Idle and after the
completion when Busy, with BUSY read as 0. That the engine moves between two polls is the model's
choice (assumption 12). -/
def Obligations.WaitEndsWithEngineIdle : Prop :=
  ∀ (s : State) (ts : List Turn), s.agenda = .wait :: ts →
    ∃ t, core.run (if s.isBusy then 3 else 1) s = .next t ∧ t.agenda = ts ∧
      t.isBusy = false ∧ t.reply = some (t.statusWord.setWidth 64)

/-! ## Every command completes (one statement per command) -/

/-- 40_control.md R130: NOP succeeds and changes the completion fields only. -/
def Obligations.NopCompletes : Prop :=
  ∀ s : State, ∃ t, exec .nop s = .next t ∧ Succeeded t {} ∧ OnlyCompletion s t

/-- 41_amplitude.md R142: AMP_MAP stores the amplitude of every source byte, in order. -/
def Obligations.AmpMapStoresAmplitudes : Prop :=
  ∀ s : State, SrcInside s → DstInside s → RangesApart s →
    16 * s.srcLen.toNat ≤ s.dstCap.toNat →
    ∃ t, exec .ampMap s = .next t ∧
      Succeeded t { resultLen := 16 * s.srcLen.toNat, consumed := s.srcLen.toNat } ∧
      OnlyStored s t (s.srcBytes.flatMap fun b =>
        leBytes 8 (amp b).re.toNat ++ leBytes 8 (amp b).im.toNat) ∧
      ((s.srcBytes.flatMap fun b =>
        leBytes 8 (amp b).re.toNat ++ leBytes 8 (amp b).im.toNat).length =
          16 * s.srcLen.toNat)

/-- 41_amplitude.md R143: AMP_UNMAP stores the byte of every source amplitude. -/
def Obligations.AmpUnmapStoresBytes : Prop :=
  ∀ s : State, SrcInside s → DstInside s → RangesApart s →
    s.srcLen.toNat % 16 = 0 → s.srcLen.toNat / 16 ≤ s.dstCap.toNat →
    ∃ t bs, exec .ampUnmap s = .next t ∧
      Succeeded t { resultLen := s.srcLen.toNat / 16, consumed := s.srcLen.toNat } ∧
      OnlyStored s t bs ∧ bs.length = s.srcLen.toNat / 16 ∧
      ∀ i, i < s.srcLen.toNat / 16 →
        t.readByte (s.dstAddr.toNat + i) =
          unamp ⟨BitVec.ofNat 64 (leNat (s.readBytes (s.srcAddr.toNat + 16 * i) 8)),
                 BitVec.ofNat 64 (leNat (s.readBytes (s.srcAddr.toNat + 16 * i + 8) 8))⟩

/-- 42_tensor_train.md R160: DECOMPOSE stores the serialized chain of its decomposition, and writes
ORIG_LEN. -/
def Obligations.DecomposeStoresChain : Prop :=
  ∀ s : State, SrcInside s → DstInside s → RangesApart s → s.maxRank ≠ 0 → s.srcLen ≠ 0 →
    paddedCount s.srcLen.toNat ≤ Config.workElems →
    ∀ d, d = decomposition s.maxRank.toNat s.eps s.srcBytes →
    (chainBytes d.1 d.2).length ≤ s.dstCap.toNat →
    ∃ t, exec .decompose s = .next t ∧
      Succeeded t
        { resultLen := (chainBytes d.1 d.2).length, consumed := s.srcLen.toNat
          aux0 := stepCount s.srcLen.toNat + 1, aux1 := d.1.foldl max 0 } ∧
      HostRegsKept s t ∧ FreqKept s t ∧ CodesKept s t ∧ t.draws = s.draws ∧
      t.origLen = s.srcLen.toNat ∧
      MemoryHolds t s.dstAddr.toNat (chainBytes d.1 d.2) ∧
      MemoryKeptOutside s t s.dstAddr.toNat (chainBytes d.1 d.2).length

/-- 42_tensor_train.md R166: CHAIN_CHECK reports the bytes and the padded length of a legal chain. -/
def Obligations.ChainCheckReportsChain : Prop :=
  ∀ (s : State) (c : Chain), SrcInside s → parseChain s.srcBytes = .ok c →
    ∃ t, exec .chainCheck s = .next t ∧
      Succeeded t
        { consumed := c.consumed, aux0 := c.padded % 2 ^ 32, aux1 := c.padded / 2 ^ 32 } ∧
      OnlyCompletion s t

/-- 42_tensor_train.md R168: RECONSTRUCT stores the first ORIG_LEN bytes of the contracted chain. That
the contraction multiplies with the reference product of R153 is the model's choice (assumption 10,
unsafe for an implementation with another product): the bytes of a chain of two or more tensors rest
on it. -/
def Obligations.ReconstructStoresBytes : Prop :=
  ∀ (s : State) (c : Chain), SrcInside s → DstInside s → RangesApart s →
    parseChain s.srcBytes = .ok c → c.padded ≤ Config.workElems → s.origLen ≤ c.padded →
    s.origLen ≤ s.dstCap.toNat →
    ∃ t, exec .reconstruct s = .next t ∧
      Succeeded t
        { resultLen := s.origLen, consumed := c.consumed
          aux0 := c.padded % 2 ^ 32, aux1 := c.padded / 2 ^ 32 } ∧
      OnlyStored s t (((contract c.tensors).take s.origLen).map unamp) ∧
      (((contract c.tensors).take s.origLen).map unamp).length = s.origLen

/-- 43_huffman.md R190: HIST_CLEAR zeroes every counter and nothing else. -/
def Obligations.HistClearZeroesCounters : Prop :=
  ∀ s : State, ∃ t, exec .histClear s = .next t ∧ Succeeded t {} ∧ HostRegsKept s t ∧
    OrigLenKept s t ∧ CodesKept s t ∧ MemoryKept s t ∧ t.draws = s.draws ∧
    ∀ x : Byte, t.freq.entry x = 0

/-- 43_huffman.md R191: HIST_ACCUM adds the number of occurrences of each byte. -/
def Obligations.HistAccumAddsCounts : Prop :=
  ∀ s : State, SrcInside s →
    (∀ x : Byte, (s.freq.entry x).toNat + s.srcBytes.count x ≤ 2 ^ 64 - 1) →
    ∃ t, exec .histAccum s = .next t ∧ Succeeded t { consumed := s.srcLen.toNat } ∧
      HostRegsKept s t ∧ OrigLenKept s t ∧ CodesKept s t ∧ MemoryKept s t ∧
      t.draws = s.draws ∧
      ∀ x : Byte, (t.freq.entry x).toNat = (s.freq.entry x).toNat + s.srcBytes.count x

/-- 43_huffman.md R192: BUILD_TABLE installs the lengths of the histogram and their canonical codes,
in every state. -/
def Obligations.BuildTableInstallsCanonicalTable : Prop :=
  ∀ s : State, ∃ t, exec .buildTable s = .next t ∧
    Succeeded t
      { aux0 := (symbols.filter fun x => s.freq.entry x != 0).length, aux1 := maxLength t.len } ∧
    t.len = tableLengths s.freq ∧ t.code = canonical t.len ∧ t.tableValid = true ∧
    HostRegsKept s t ∧ OrigLenKept s t ∧ FreqKept s t ∧ MemoryKept s t ∧ t.draws = s.draws

/-- 43_huffman.md R195: TABLE_STORE stores the 256 code lengths in symbol order. -/
def Obligations.TableStoreStoresLengths : Prop :=
  ∀ s : State, DstInside s → s.tableValid = true → 256 ≤ s.dstCap.toNat →
    ∃ t, exec .tableStore s = .next t ∧
      Succeeded t { resultLen := 256, aux0 := codedCount s.len, aux1 := maxLength s.len } ∧
      OnlyStored s t (symbols.map s.len.entry) ∧
      ∀ x : Byte, t.readByte (s.dstAddr.toNat + x.toNat) = s.len.entry x

/-- 43_huffman.md R196: TABLE_LOAD installs an admissible length array and its canonical codes. -/
def Obligations.TableLoadInstallsLengths : Prop :=
  ∀ s : State, SrcInside s → s.srcLen.toNat = 256 →
    admissible (lengthsOfBytes s.srcBytes) = true →
    ∃ t, exec .tableLoad s = .next t ∧
      Succeeded t { consumed := 256, aux0 := codedCount t.len, aux1 := maxLength t.len } ∧
      (∀ x : Byte, t.len.entry x = s.readByte (s.srcAddr.toNat + x.toNat)) ∧
      t.code = canonical t.len ∧ t.tableValid = true ∧
      HostRegsKept s t ∧ OrigLenKept s t ∧ FreqKept s t ∧ MemoryKept s t ∧ t.draws = s.draws

/-- 43_huffman.md R205, R206: ENCODE stores the count and the packed codes of the source bytes; each
code goes most significant bit first (R203), bit `j` of the stream stands at bit `7 - j % 8` of the byte
`8 + j / 8` of the payload (R203), and the bits after the last are 0 (R204). -/
def Obligations.EncodeStoresPayload : Prop :=
  (∀ (l : Table (BitVec 8)) (c : Table (BitVec 255)) (x : Byte),
    (codeString l c x).length = (l.entry x).toNat ∧
    ∀ k, k < (l.entry x).toNat →
      (codeString l c x)[k]? = some ((c.entry x).getLsbD ((l.entry x).toNat - 1 - k))) ∧
  (∀ (s : State) (w : List Bool), SrcInside s → DstInside s → RangesApart s →
    s.tableValid = true → (∀ x ∈ s.srcBytes, s.len.entry x ≠ 0) →
    8 + ceilDiv (bitCount s.len s.srcBytes) 8 ≤ s.dstCap.toNat →
    w = s.srcBytes.flatMap (codeString s.len s.code) →
    w.length = bitCount s.len s.srcBytes ∧
    ∃ t, exec .encode s = .next t ∧
      Succeeded t
        { resultLen := 8 + ceilDiv w.length 8, consumed := s.srcLen.toNat
          aux0 := w.length % 2 ^ 32, aux1 := w.length / 2 ^ 32 } ∧
      OnlyStored s t (leBytes 8 s.srcLen.toNat ++ packBits w) ∧
      (leBytes 8 s.srcLen.toNat ++ packBits w).length = 8 + ceilDiv w.length 8 ∧
      (∀ j b, w[j]? = some b →
        (t.readByte (s.dstAddr.toNat + 8 + j / 8)).getLsbD (7 - j % 8) = b) ∧
      (∀ j, w.length ≤ j → j < 8 * ceilDiv w.length 8 →
        (t.readByte (s.dstAddr.toNat + 8 + j / 8)).getLsbD (7 - j % 8) = false))

/-- 43_huffman.md R210: DECODE stores the symbols the match step reads, `payloadCount` of them. Bit `j`
of the stream it reads is bit `7 - j % 8` of the byte `8 + j / 8` of the source (R207). -/
def Obligations.DecodeStoresSymbols : Prop :=
  (∀ s : State, (payloadBits s.srcBytes).length = 8 * (s.srcLen.toNat - 8) ∧
    ∀ j, j < 8 * (s.srcLen.toNat - 8) →
      (payloadBits s.srcBytes)[j]? =
        some ((s.readByte (s.srcAddr.toNat + 8 + j / 8)).getLsbD (7 - j % 8))) ∧
  (∀ (s : State) (out : List Byte) (after : List Bool) (j : Nat),
    SrcInside s → DstInside s → RangesApart s → s.tableValid = true → 8 ≤ s.srcLen.toNat →
    s.payloadCount ≤ s.dstCap.toNat →
    decodeSymbols (codeBook s.len s.code) s.payloadCount (payloadBits s.srcBytes) =
      .ok (out, after) →
    j = 8 * (s.srcLen.toNat - 8) - after.length →
    ∃ t, exec .decode s = .next t ∧
      Succeeded t
        { resultLen := s.payloadCount, consumed := 8 + ceilDiv j 8
          aux0 := j % 2 ^ 32, aux1 := j / 2 ^ 32 } ∧
      OnlyStored s t out ∧ out.length = s.payloadCount)

/-- 44_container.md R240: HDR_PACK stores the 9 header bytes with SRC_LEN as the table length, which
it does not check against BUF. -/
def Obligations.HdrPackStoresHeader : Prop :=
  ∀ s : State, DstInside s → 9 ≤ s.dstCap.toNat →
    ∃ t, exec .hdrPack s = .next t ∧ Succeeded t { resultLen := 9 } ∧
      OnlyStored s t ([0x51#8, 0x43#8, 0x4D#8, 0x50#8, 0x01#8] ++ leBytes 4 s.srcLen.toNat)

/-- 44_container.md R241: HDR_PARSE reports the table and payload lengths of a legal header. -/
def Obligations.HdrParseReportsLengths : Prop :=
  ∀ (s : State) (n : Nat), SrcInside s → 9 ≤ s.srcLen.toNat →
    s.readBytes s.srcAddr.toNat 4 = [0x51#8, 0x43#8, 0x4D#8, 0x50#8] →
    s.readByte (s.srcAddr.toNat + 4) = 0x01#8 →
    n = leNat (s.readBytes (s.srcAddr.toNat + 5) 4) → n ≤ s.srcLen.toNat - 9 →
    ∃ t, exec .hdrParse s = .next t ∧
      Succeeded t { consumed := 9, aux0 := n, aux1 := s.srcLen.toNat - 9 - n } ∧
      OnlyCompletion s t

/-! ## Completion and errors (60_exceptions.md) -/

/-- 60_exceptions.md R254, R255 and R258: every command completes in every state, in success or in
one reported error; the interrupt output is then DONE_IE. -/
def Obligations.EveryCommandCompletes : Prop :=
  ∀ (i : Instr) (s : State), ∃ t, exec i s = .next t ∧ t.engine = .idle ∧ t.done = true ∧
    HostRegsKept s t ∧ t.irq = s.doneIE ∧
    ((t.errCode = .none ∧ t.errDetail = .none) ∨
      (t.errCode ≠ .none ∧ Failed t ⟨t.errCode, t.errDetail⟩))

/-- 60_exceptions.md R253 with the table of R252: the state any failed command leaves. -/
def Obligations.FailedCommandChangesOnlyNamedState : Prop :=
  ∀ (i : Instr) (s t : State), exec i s = .next t → t.errCode ≠ .none →
    Failed t ⟨t.errCode, t.errDetail⟩ ∧ HostRegsKept s t ∧ OrigLenKept s t ∧
    (scramblesDst i t.errDetail = true →
      MemoryKeptOutside s t s.dstAddr.toNat s.dstCap.toNat) ∧
    (scramblesDst i t.errDetail = false → MemoryKept s t) ∧
    (scramblesFreq i t.errDetail = false → FreqKept s t) ∧
    (scramblesCodes i t.errDetail = true → t.tableValid = false) ∧
    (scramblesCodes i t.errDetail = false → CodesKept s t)

/-- 30_encoding.md R105: the three operand checks, in order, for every command. -/
def Obligations.OperandRangeErrorsInOrder : Prop :=
  ∀ (i : Instr) (s : State),
    (usesSrc i = true → ¬ SrcInside s →
      ∃ t, exec i s = .next t ∧ Failed t ⟨.badRange, .srcRange⟩ ∧ OnlyCompletion s t) ∧
    ((usesSrc i = true → SrcInside s) → usesDst i = true → ¬ DstInside s →
      ∃ t, exec i s = .next t ∧ Failed t ⟨.badRange, .dstRange⟩ ∧ OnlyCompletion s t) ∧
    (usesSrc i = true → usesDst i = true → SrcInside s → DstInside s → ¬ RangesApart s →
      ∃ t, exec i s = .next t ∧ Failed t ⟨.badRange, .overlap⟩ ∧ OnlyCompletion s t)

/-- The OUT_CAP and LEN_ALIGN checks of AMP_MAP, AMP_UNMAP, TABLE_STORE and HDR_PACK (41_amplitude.md
R142, R143; 43_huffman.md R195; 44_container.md R240). -/
def Obligations.CapacityErrorsChangeNothing : Prop :=
  (∀ s : State, SrcInside s → DstInside s → RangesApart s →
    s.dstCap.toNat < 16 * s.srcLen.toNat →
    ∃ t, exec .ampMap s = .next t ∧ Failed t ⟨.badRange, .outCap⟩ ∧ OnlyCompletion s t) ∧
  (∀ s : State, SrcInside s → DstInside s → RangesApart s → s.srcLen.toNat % 16 ≠ 0 →
    ∃ t, exec .ampUnmap s = .next t ∧ Failed t ⟨.badRange, .lenAlign⟩ ∧ OnlyCompletion s t) ∧
  (∀ s : State, SrcInside s → DstInside s → RangesApart s → s.srcLen.toNat % 16 = 0 →
    s.dstCap.toNat < s.srcLen.toNat / 16 →
    ∃ t, exec .ampUnmap s = .next t ∧ Failed t ⟨.badRange, .outCap⟩ ∧ OnlyCompletion s t) ∧
  (∀ s : State, DstInside s → s.tableValid = true → s.dstCap.toNat < 256 →
    ∃ t, exec .tableStore s = .next t ∧ Failed t ⟨.badRange, .outCap⟩ ∧ OnlyCompletion s t) ∧
  (∀ s : State, DstInside s → s.dstCap.toNat < 9 →
    ∃ t, exec .hdrPack s = .next t ∧ Failed t ⟨.badRange, .outCap⟩ ∧ OnlyCompletion s t)

/-- TABLE_STORE, ENCODE and DECODE without a valid table (43_huffman.md R195, R205, R210). -/
def Obligations.CommandsWithoutTableFail : Prop :=
  ∀ s : State, s.tableValid = false → DstInside s →
    (∃ t, exec .tableStore s = .next t ∧ Failed t ⟨.huffmanEncoding, .noTable⟩ ∧
      OnlyCompletion s t) ∧
    (SrcInside s → RangesApart s →
      (∃ t, exec .encode s = .next t ∧ Failed t ⟨.huffmanEncoding, .noTable⟩ ∧
        OnlyCompletion s t) ∧
      (∃ t, exec .decode s = .next t ∧ Failed t ⟨.decompressionFailed, .noTable⟩ ∧
        OnlyCompletion s t))

/-- The errors of DECOMPOSE after the operand checks, in order (42_tensor_train.md R160): MAX_RANK 0
first, then an empty input, then WORK_LIMIT exactly when the padded length passes WORK_ELEMS, each
changing the completion fields only; then OUT_CAP when the chain is longer than DST_CAP, which leaves
only the destination range open. -/
def Obligations.DecomposeParameterErrors : Prop :=
  ∀ s : State, SrcInside s → DstInside s → RangesApart s →
    (s.maxRank = 0 →
      ∃ t, exec .decompose s = .next t ∧ Failed t ⟨.tensorDecomposition, .rankZero⟩ ∧
        OnlyCompletion s t) ∧
    (s.maxRank ≠ 0 → s.srcLen = 0 →
      ∃ t, exec .decompose s = .next t ∧ Failed t ⟨.tensorDecomposition, .emptyInput⟩ ∧
        OnlyCompletion s t) ∧
    (s.maxRank ≠ 0 → s.srcLen ≠ 0 →
      ∃ t, exec .decompose s = .next t ∧
        (t.errDetail = .workLimit ↔ Config.workElems < paddedCount s.srcLen.toNat) ∧
        (t.errDetail = .workLimit →
          Failed t ⟨.tensorDecomposition, .workLimit⟩ ∧ OnlyCompletion s t)) ∧
    (s.maxRank ≠ 0 → s.srcLen ≠ 0 → paddedCount s.srcLen.toNat ≤ Config.workElems →
      ∀ d, d = decomposition s.maxRank.toNat s.eps s.srcBytes →
      s.dstCap.toNat < (chainBytes d.1 d.2).length →
      ∃ t, exec .decompose s = .next t ∧ Failed t ⟨.badRange, .outCap⟩ ∧
        HostRegsKept s t ∧ OrigLenKept s t ∧ FreqKept s t ∧ CodesKept s t ∧
        MemoryKeptOutside s t s.dstAddr.toNat s.dstCap.toNat)

/-- The checks of TABLE_LOAD (43_huffman.md R196): a wrong length changes nothing; an oversubscribed
array clears TABLE_VALID, and FREQ and BUF are kept. -/
def Obligations.TableLoadErrors : Prop :=
  ∀ s : State, SrcInside s →
    (s.srcLen.toNat ≠ 256 →
      ∃ t, exec .tableLoad s = .next t ∧ Failed t ⟨.decompressionFailed, .tableLength⟩ ∧
        OnlyCompletion s t) ∧
    (s.srcLen.toNat = 256 → 2 ^ 255 < kraftSum (lengthsOfBytes s.srcBytes) →
      ∃ t, exec .tableLoad s = .next t ∧ Failed t ⟨.decompressionFailed, .tableOversub⟩ ∧
        t.tableValid = false ∧ HostRegsKept s t ∧ OrigLenKept s t ∧ FreqKept s t ∧
        MemoryKept s t)

/-- HIST_ACCUM past 2^64 - 1 (43_huffman.md R191): the error is reported, and everything but FREQ is
kept. -/
def Obligations.HistAccumOverflowIsReported : Prop :=
  ∀ (s : State) (x : Byte), SrcInside s →
    2 ^ 64 - 1 < (s.freq.entry x).toNat + s.srcBytes.count x →
    ∃ t, exec .histAccum s = .next t ∧ Failed t ⟨.huffmanEncoding, .freqOverflow⟩ ∧
      HostRegsKept s t ∧ OrigLenKept s t ∧ CodesKept s t ∧ MemoryKept s t

/-- The execution errors of ENCODE, in order (43_huffman.md R205): SYMBOL_UNCODED wins over OUT_CAP;
nothing outside the destination range changes. -/
def Obligations.EncodeErrorsInOrder : Prop :=
  ∀ s : State, SrcInside s → DstInside s → RangesApart s → s.tableValid = true →
    ((∃ x ∈ s.srcBytes, s.len.entry x = 0) →
      ∃ t, exec .encode s = .next t ∧ Failed t ⟨.huffmanEncoding, .symbolUncoded⟩ ∧
        HostRegsKept s t ∧ OrigLenKept s t ∧ FreqKept s t ∧ CodesKept s t ∧
        MemoryKeptOutside s t s.dstAddr.toNat s.dstCap.toNat) ∧
    ((∀ x ∈ s.srcBytes, s.len.entry x ≠ 0) →
      s.dstCap.toNat < 8 + ceilDiv (bitCount s.len s.srcBytes) 8 →
      ∃ t, exec .encode s = .next t ∧ Failed t ⟨.badRange, .outCap⟩ ∧
        HostRegsKept s t ∧ OrigLenKept s t ∧ FreqKept s t ∧ CodesKept s t ∧
        MemoryKeptOutside s t s.dstAddr.toNat s.dstCap.toNat)

/-- The match step on one symbol (43_huffman.md R208, R209), with the bits left: NO_CODE exactly when
some prefix of them begins no code and has no code as a prefix; BITS_EXHAUSTED exactly when they are all
of them a proper prefix of a code and no code is a prefix of them; else the symbol whose code begins
them. The errors of DECODE after NO_TABLE, in order (R210): a cut count, a count above DST_CAP, then the
first error along the stream, after any number of coded symbols under a valid table. -/
def Obligations.DecodeErrorsInOrder : Prop :=
  (∀ (l : Table (BitVec 8)) (c : Table (BitVec 255)) (bits : List Bool),
    (matchStep (codeBook l c) [] bits = .error .noCode ↔
      ∃ p, p <+: bits ∧
        ∀ y, l.entry y ≠ 0 → ¬ p <+: codeString l c y ∧ ¬ codeString l c y <+: p) ∧
    (matchStep (codeBook l c) [] bits = .error .bitsExhausted ↔
      (∃ y, l.entry y ≠ 0 ∧ bits <+: codeString l c y) ∧
        ∀ y, l.entry y ≠ 0 → ¬ codeString l c y <+: bits) ∧
    (∀ x, l.entry x ≠ 0 → codeString l c x <+: bits →
      (∀ y, l.entry y ≠ 0 → codeString l c y <+: bits → y = x) →
      matchStep (codeBook l c) [] bits = .ok (x, bits.drop (l.entry x).toNat))) ∧
  (∀ s : State, SrcInside s → DstInside s → RangesApart s → s.tableValid = true →
    (s.srcLen.toNat < 8 →
      ∃ t, exec .decode s = .next t ∧ Failed t ⟨.decompressionFailed, .payloadTruncated⟩ ∧
        OnlyCompletion s t) ∧
    (8 ≤ s.srcLen.toNat → s.dstCap.toNat < s.payloadCount →
      ∃ t, exec .decode s = .next t ∧ Failed t ⟨.badRange, .outCap⟩ ∧ OnlyCompletion s t) ∧
    (∀ e, 8 ≤ s.srcLen.toNat → s.payloadCount ≤ s.dstCap.toNat →
      decodeSymbols (codeBook s.len s.code) s.payloadCount (payloadBits s.srcBytes) = .error e →
      (e = .noCode ∨ e = .bitsExhausted) ∧
      ∃ t, exec .decode s = .next t ∧ Failed t ⟨.decompressionFailed, e⟩ ∧
        HostRegsKept s t ∧ OrigLenKept s t ∧ FreqKept s t ∧ CodesKept s t ∧
        MemoryKeptOutside s t s.dstAddr.toNat s.dstCap.toNat) ∧
    (∀ (xs : List Byte) (bits : List Bool) (e : ErrDetail), TableInvariant s.len s.code →
      8 ≤ s.srcLen.toNat → s.payloadCount ≤ s.dstCap.toNat → xs.length < s.payloadCount →
      (∀ x ∈ xs, s.len.entry x ≠ 0) →
      payloadBits s.srcBytes = xs.flatMap (codeString s.len s.code) ++ bits →
      matchStep (codeBook s.len s.code) [] bits = .error e →
      ∃ t, exec .decode s = .next t ∧ Failed t ⟨.decompressionFailed, e⟩))

/-- The checks of HDR_PARSE, in order (44_container.md R241): a short header wins over a bad magic,
which wins over a bad version, which wins over a table past the source. -/
def Obligations.HdrParseErrorsInOrder : Prop :=
  ∀ s : State, SrcInside s →
    (s.srcLen.toNat < 9 →
      ∃ t, exec .hdrParse s = .next t ∧ Failed t ⟨.decompressionFailed, .hdrTruncated⟩ ∧
        OnlyCompletion s t) ∧
    (9 ≤ s.srcLen.toNat →
      s.readBytes s.srcAddr.toNat 4 ≠ [0x51#8, 0x43#8, 0x4D#8, 0x50#8] →
      ∃ t, exec .hdrParse s = .next t ∧ Failed t ⟨.decompressionFailed, .badMagic⟩ ∧
        OnlyCompletion s t) ∧
    (9 ≤ s.srcLen.toNat →
      s.readBytes s.srcAddr.toNat 4 = [0x51#8, 0x43#8, 0x4D#8, 0x50#8] →
      s.readByte (s.srcAddr.toNat + 4) ≠ 0x01#8 →
      ∃ t, exec .hdrParse s = .next t ∧ Failed t ⟨.decompressionFailed, .badVersion⟩ ∧
        OnlyCompletion s t) ∧
    (9 ≤ s.srcLen.toNat →
      s.readBytes s.srcAddr.toNat 4 = [0x51#8, 0x43#8, 0x4D#8, 0x50#8] →
      s.readByte (s.srcAddr.toNat + 4) = 0x01#8 →
      s.srcLen.toNat - 9 < leNat (s.readBytes (s.srcAddr.toNat + 5) 4) →
      ∃ t, exec .hdrParse s = .next t ∧ Failed t ⟨.decompressionFailed, .tableTruncated⟩ ∧
        OnlyCompletion s t)

/-- A chain that does not parse fails CHAIN_CHECK and RECONSTRUCT with the detail of the parse; a
parsed chain fails RECONSTRUCT with WORK_LIMIT exactly when the padded length passes WORK_ELEMS, then
on ORIG_LEN above the padded length, then on DST_CAP below ORIG_LEN (42_tensor_train.md R166, R168). -/
def Obligations.ChainErrorsChangeNothing : Prop :=
  (∀ (s : State) (e : ErrDetail), SrcInside s → parseChain s.srcBytes = .error e →
    (e = .chainTruncated ∨ e = .chainShape ∨ e = .physDim) ∧
    (∃ t, exec .chainCheck s = .next t ∧ Failed t ⟨.decompressionFailed, e⟩ ∧
      OnlyCompletion s t) ∧
    (DstInside s → RangesApart s →
      ∃ t, exec .reconstruct s = .next t ∧ Failed t ⟨.decompressionFailed, e⟩ ∧
        OnlyCompletion s t)) ∧
  (∀ (s : State) (c : Chain), SrcInside s → DstInside s → RangesApart s →
    parseChain s.srcBytes = .ok c →
    ∃ t, exec .reconstruct s = .next t ∧
      (t.errDetail = .workLimit ↔ Config.workElems < c.padded) ∧
      (t.errDetail = .workLimit →
        Failed t ⟨.decompressionFailed, .workLimit⟩ ∧ OnlyCompletion s t)) ∧
  (∀ (s : State) (c : Chain), SrcInside s → DstInside s → RangesApart s →
    parseChain s.srcBytes = .ok c → c.padded ≤ Config.workElems →
    (c.padded < s.origLen →
      ∃ t, exec .reconstruct s = .next t ∧ Failed t ⟨.decompressionFailed, .origLen⟩ ∧
        OnlyCompletion s t) ∧
    (s.origLen ≤ c.padded → s.dstCap.toNat < s.origLen →
      ∃ t, exec .reconstruct s = .next t ∧ Failed t ⟨.badRange, .outCap⟩ ∧
        OnlyCompletion s t))

/-- The parse of a chain, whole (42_tensor_train.md R163 to R165): the checks of the first fields in
order; a bond outside 1..256; after any number of legal tensors, the checks of the next tensor's header,
shape and entries in order; a legal chain parses to itself, whatever follows it, but for a padded length
of 2^64 or more; and whatever parses is a legal chain with the bytes it was read from. -/
def Obligations.ChainHeaderChecksInOrder : Prop :=
  (∀ src : List Byte,
    (src.length < 8 → parseChain src = .error .chainTruncated) ∧
    (8 ≤ src.length → leNat (src.take 4) = 0 → parseChain src = .error .chainShape) ∧
    (8 ≤ src.length → leNat (src.take 4) ≠ 0 → leNat ((src.drop 4).take 4) ≠ 256 →
      parseChain src = .error .physDim) ∧
    (8 ≤ src.length → leNat (src.take 4) ≠ 0 → leNat ((src.drop 4).take 4) = 256 →
      src.length - 8 < 4 * (leNat (src.take 4) - 1) → parseChain src = .error .chainTruncated) ∧
    (∀ i b, leNat (src.take 4) ≠ 0 → leNat ((src.drop 4).take 4) = 256 →
      8 + 4 * (leNat (src.take 4) - 1) ≤ src.length → i < leNat (src.take 4) - 1 →
      b = leNat ((src.drop (8 + 4 * i)).take 4) → b < 1 ∨ 256 < b →
      parseChain src = .error .chainShape)) ∧
  (∀ (tc rows cols : Nat) (bonds : List Nat) (ts : List CMat) (rest src : List Byte),
    tc < 2 ^ 32 → ts.length < tc → LegalTensors tc bonds ts →
    src = leBytes 4 tc ++ leBytes 4 256 ++ bonds.flatMap (leBytes 4) ++ ts.flatMap tensorBytes ++
      rest →
    rows = leNat (rest.take 4) → cols = leNat ((rest.drop 4).take 4) →
    (rest.length < 8 → parseChain src = .error .chainTruncated) ∧
    (8 ≤ rest.length → legalShape tc bonds ts.length rows cols = false →
      parseChain src = .error .chainShape) ∧
    (8 ≤ rest.length → legalShape tc bonds ts.length rows cols = true →
      rest.length - 8 < 16 * rows * cols → parseChain src = .error .chainTruncated)) ∧
  (∀ (bonds : List Nat) (ts : List CMat) (rest : List Byte),
    ts.length < 2 ^ 32 → LegalTensors ts.length bonds ts →
    (2 ^ 64 ≤ paddedLength bonds ts →
      parseChain (chainBytes bonds ts ++ rest) = .error .chainShape) ∧
    (paddedLength bonds ts < 2 ^ 64 →
      parseChain (chainBytes bonds ts ++ rest) =
        .ok ⟨bonds, ts, paddedLength bonds ts, (chainBytes bonds ts).length⟩)) ∧
  (∀ (src : List Byte) (c : Chain), parseChain src = .ok c →
    LegalTensors c.tensors.length c.bonds c.tensors ∧ c.consumed ≤ src.length ∧
    src.take c.consumed = chainBytes c.bonds c.tensors ∧
    c.padded = paddedLength c.bonds c.tensors ∧ c.padded < 2 ^ 64)

/-! ## Arithmetic and the amplitude mapper (00_scope.md R10, 41_amplitude.md) -/

/-- 00_scope.md R10: a magnitude rounds to infinity exactly when it is at least half a unit in the last
place above the largest finite value, `(2^53 - 1) * 2^2045` units; any other rounds to the nearest
binary64 value, and of two equally near ones to the one whose pattern is even. -/
def Obligations.RoundingIsToNearestEven : Prop :=
  (∀ num den : Nat, 0 < den → F64.roundMag num den ≤ F64.infMag ∧
    (F64.roundMag num den = F64.infMag ↔
      ((2 ^ 53 - 1) * 2 ^ 2045 + 2 ^ 2044) * den ≤ num)) ∧
  (∀ (num den : Nat) (x : F64), 0 < den → F64.roundMag num den < F64.infMag →
    F64.isNaN x = false → F64.isInf x = false → F64.sign x = false →
    ((F64.units (F64.pack false (F64.roundMag num den)) * den : Int) - num).natAbs ≤
      ((F64.units x * den : Int) - num).natAbs ∧
    (((F64.units (F64.pack false (F64.roundMag num den)) * den : Int) - num).natAbs =
      ((F64.units x * den : Int) - num).natAbs →
      x ≠ F64.pack false (F64.roundMag num den) → F64.roundMag num den % 2 = 0))

/-- 41_amplitude.md R141: what `unamp` is of every amplitude, with `x` the product of its real part and
255.0: a NaN gives 0, +infinity 255, -infinity 0, and a finite `x` the clamp to 0..255 of a nearest
integer `r`, on a tie the one further from zero. R144: `unamp` undoes `amp` on every byte, the product
inside it being exactly the binary64 value of the byte, and unmapping is idempotent. -/
def Obligations.UnampUndoesAmp : Prop :=
  (∀ (z : C64) (x : F64), x = F64.mul z.re F64.c255 →
    (F64.isNaN x = true → unamp z = 0#8) ∧
    (F64.isInf x = true → F64.sign x = false → unamp z = 255#8) ∧
    (F64.isInf x = true → F64.sign x = true → unamp z = 0#8) ∧
    (F64.isNaN x = false → F64.isInf x = false →
      ∃ r : Int, 2 * (r * 2 ^ 1074 - F64.signedUnits x).natAbs ≤ 2 ^ 1074 ∧
        (2 * (r * 2 ^ 1074 - F64.signedUnits x).natAbs = 2 ^ 1074 →
          (F64.signedUnits x).natAbs < r.natAbs * 2 ^ 1074) ∧
        ((unamp z).toNat : Int) = min 255 (max 0 r))) ∧
  (∀ b : Byte, F64.mul (amp b).re F64.c255 = F64.ofNat b.toNat) ∧
  (∀ b : Byte, unamp (amp b) = b) ∧ (∀ z : C64, unamp (amp (unamp z)) = unamp z)

/-! ## The tensor train (42_tensor_train.md) -/

/-- 42_tensor_train.md R155: the step count is the least that fits, and the padding is less than one
row of it. -/
def Obligations.PaddedLengthIsLeast : Prop :=
  ∀ n : Nat, 1 ≤ n →
    paddedCount n = lastFactor n * 256 ^ stepCount n ∧
    lastFactor n = ceilDiv n (256 ^ stepCount n) ∧
    1 ≤ lastFactor n ∧ lastFactor n ≤ 255 ∧ n ≤ paddedCount n ∧
    paddedCount n - n < 256 ^ stepCount n ∧
    (n < 256 → stepCount n = 0 ∧ lastFactor n = n) ∧
    (256 ≤ n → 1 ≤ stepCount n ∧
      ∀ m, 1 ≤ m → m < stepCount n → 256 ≤ ceilDiv n (256 ^ m)) ∧
    (256 ≤ n → n ≤ 65280 → stepCount n = 1) ∧
    (65281 ≤ n → n ≤ 16711680 → stepCount n = 2) ∧
    (16711681 ≤ n → n ≤ 4278190080 → stepCount n = 3)

/-- 42_tensor_train.md R157 and R162: a kept rank is at least 1 and at most MAX_RANK, 256 and both
sides of the unfolding; so is every bond of a decomposition at most MAX_RANK and 256. -/
def Obligations.BondDimensionsAreBounded : Prop :=
  ∀ (maxRank : Nat) (eps : F64), 1 ≤ maxRank →
    (∀ m : CMat, 1 ≤ m.rows → 1 ≤ m.cols →
      1 ≤ rankKept maxRank eps m ∧ rankKept maxRank eps m ≤ maxRank ∧
      rankKept maxRank eps m ≤ 256 ∧ rankKept maxRank eps m ≤ m.rows ∧
      rankKept maxRank eps m ≤ m.cols) ∧
    (∀ (src : List Byte) (b : Nat), src ≠ [] → b ∈ (decomposition maxRank eps src).1 →
      1 ≤ b ∧ b ≤ maxRank ∧ b ≤ 256)

/-- 42_tensor_train.md R152: the size of a serialized chain. -/
def Obligations.SerializedChainSize : Prop :=
  ∀ (bonds : List Nat) (ts : List CMat), ts ≠ [] → bonds.length = ts.length - 1 →
    (∀ x ∈ ts, x.entries.length = x.rows * x.cols) →
    (chainBytes bonds ts).length =
      8 + 4 * (ts.length - 1) + (ts.map fun x => 8 + 16 * (x.rows * x.cols)).sum

/-- 42_tensor_train.md R163 and R165: every chain DECOMPOSE writes passes the parse, whatever bytes
follow it, and the parse gives back its bonds, its tensors and the padded length of R155. -/
def Obligations.DecomposedChainParsesBack : Prop :=
  ∀ (maxRank : Nat) (eps : F64) (src rest : List Byte), src ≠ [] → src.length < 2 ^ 32 →
    ∀ d, d = decomposition maxRank eps src →
    parseChain (chainBytes d.1 d.2 ++ rest) =
      .ok ⟨d.1, d.2, paddedCount src.length, (chainBytes d.1 d.2).length⟩

/-- 42_tensor_train.md R169: for 1 to 255 bytes, RECONSTRUCT of the chain DECOMPOSE wrote, with the
ORIG_LEN it wrote, gives the bytes back, whatever MAX_RANK (not 0), EPS and SVD are. -/
def Obligations.ShortInputsRoundTripExactly : Prop :=
  ∀ s : State, SrcInside s → DstInside s → RangesApart s → s.maxRank ≠ 0 →
    1 ≤ s.srcLen.toNat → s.srcLen.toNat ≤ 255 → 16 + 16 * s.srcLen.toNat ≤ s.dstCap.toNat →
    ∃ t, exec .decompose s = .next t ∧ t.errCode = .none ∧
      ∀ (a c : Word) (u : State),
        u = { t with srcAddr := s.dstAddr, srcLen := t.resultLen, dstAddr := a, dstCap := c } →
        DstInside u → RangesApart u → s.srcLen.toNat ≤ c.toNat →
        ∃ v, exec .reconstruct u = .next v ∧
          Succeeded v
            { resultLen := s.srcLen.toNat, consumed := t.resultLen.toNat
              aux0 := s.srcLen.toNat } ∧
          MemoryHolds v a.toNat s.srcBytes

/-! ## The Huffman code (43_huffman.md) -/

/-- 43_huffman.md R201: the Kraft sum of a built table is 1 for two or more present symbols, 1/2 for
one and 0 for none (in units of 2^-255). -/
def Obligations.BuiltTableKraftSum : Prop :=
  ∀ f : Table (BitVec 64),
    (2 ≤ (presentSymbols f).length → kraftSum (tableLengths f) = 2 ^ 255) ∧
    ((presentSymbols f).length = 1 → kraftSum (tableLengths f) = 2 ^ 254) ∧
    ((presentSymbols f).length = 0 → kraftSum (tableLengths f) = 0)

/-- 43_huffman.md R200: the canonical codes of an admissible length array fit their lengths, are
pairwise distinct, and none is a prefix of another. -/
def Obligations.CanonicalCodesArePrefixFree : Prop :=
  ∀ l : Table (BitVec 8), admissible l = true →
    (∀ x : Byte, ((canonical l).entry x).toNat < 2 ^ (l.entry x).toNat) ∧
    ∀ x y : Byte, l.entry x ≠ 0 → l.entry y ≠ 0 →
      codeString l (canonical l) x <+: codeString l (canonical l) y → x = y

/-- 43_huffman.md R192 and R196: a valid table stored by TABLE_STORE and loaded from the same bytes by
TABLE_LOAD is the same table. -/
def Obligations.StoredTableLoadsBack : Prop :=
  ∀ s : State, TableInvariant s.len s.code → s.tableValid = true → DstInside s →
    256 ≤ s.dstCap.toNat →
    ∃ t, exec .tableStore s = .next t ∧
      ∃ v, exec .tableLoad { t with srcAddr := s.dstAddr, srcLen := 256 } = .next v ∧
        v.errCode = .none ∧ v.tableValid = true ∧ v.len = s.len ∧ v.code = s.code

/-- 43_huffman.md R211: DECODE of the payload ENCODE wrote, under a valid table, writes exactly the
source bytes and reports the same sizes. -/
def Obligations.EncodedBytesDecodeBack : Prop :=
  ∀ s : State, SrcInside s → DstInside s → RangesApart s → s.tableValid = true →
    TableInvariant s.len s.code → (∀ x ∈ s.srcBytes, s.len.entry x ≠ 0) →
    8 + ceilDiv (bitCount s.len s.srcBytes) 8 ≤ s.dstCap.toNat →
    ∃ t, exec .encode s = .next t ∧ t.errCode = .none ∧
      ∀ (a c : Word) (u : State),
        u = { t with srcAddr := s.dstAddr, srcLen := t.resultLen, dstAddr := a, dstCap := c } →
        DstInside u → RangesApart u → s.srcLen.toNat ≤ c.toNat →
        ∃ v, exec .decode u = .next v ∧
          Succeeded v
            { resultLen := s.srcLen.toNat, consumed := t.resultLen.toNat
              aux0 := t.aux0.toNat, aux1 := t.aux1.toNat } ∧
          MemoryHolds v a.toNat s.srcBytes

/-! ## Invariants -/

/-- The memory, table and status invariants hold at reset. The canonical form of BUF is the model's
choice (assumption 4). -/
def Obligations.ResetMeetsInvariants : Prop :=
  MemoryInvariant State.reset ∧ TablesInvariant State.reset ∧ StatusInvariant State.reset

/-- 20_memory.md R70, R71, R76: every step keeps BUF inside its addresses; and in canonical form, the
model's choice (assumption 4). -/
def Obligations.StepKeepsMemoryInvariant : Prop :=
  ∀ s t : State, MemoryInvariant s → step s = .next t → MemoryInvariant t

/-- 10_state.md R49: every step keeps the tables valid whenever TABLE_VALID is 1. -/
def Obligations.StepKeepsTablesInvariant : Prop :=
  ∀ s t : State, TablesInvariant s → step s = .next t → TablesInvariant t

/-- 10_state.md R30, R31, R35, R43, R52 and 60_exceptions.md R251: every step keeps what STATUS, CMD
and the result registers say of one another. -/
def Obligations.StepKeepsStatusInvariant : Prop :=
  ∀ s t : State, StatusInvariant s → step s = .next t → StatusInvariant t
end

