-- ==== Sys2Proof/Laws/State.lean ====
section
/-! SUPPORT. One lemma per field per update of State, each true by rfl, so that no proof unfolds a
record update. -/

namespace Sys2Proof.Machine

/-! ## `State.writeBytes` -/

@[simp] theorem State.writeBytes_cmd (s : State) (a : Nat) (bs : List Byte) :
    (s.writeBytes a bs).cmd = s.cmd := rfl
@[simp] theorem State.writeBytes_done (s : State) (a : Nat) (bs : List Byte) :
    (s.writeBytes a bs).done = s.done := rfl
@[simp] theorem State.writeBytes_tableValid (s : State) (a : Nat) (bs : List Byte) :
    (s.writeBytes a bs).tableValid = s.tableValid := rfl
@[simp] theorem State.writeBytes_overrun (s : State) (a : Nat) (bs : List Byte) :
    (s.writeBytes a bs).overrun = s.overrun := rfl
@[simp] theorem State.writeBytes_hostConflict (s : State) (a : Nat) (bs : List Byte) :
    (s.writeBytes a bs).hostConflict = s.hostConflict := rfl
@[simp] theorem State.writeBytes_errCode (s : State) (a : Nat) (bs : List Byte) :
    (s.writeBytes a bs).errCode = s.errCode := rfl
@[simp] theorem State.writeBytes_errDetail (s : State) (a : Nat) (bs : List Byte) :
    (s.writeBytes a bs).errDetail = s.errDetail := rfl
@[simp] theorem State.writeBytes_lastOp (s : State) (a : Nat) (bs : List Byte) :
    (s.writeBytes a bs).lastOp = s.lastOp := rfl
@[simp] theorem State.writeBytes_doneIE (s : State) (a : Nat) (bs : List Byte) :
    (s.writeBytes a bs).doneIE = s.doneIE := rfl
@[simp] theorem State.writeBytes_srcAddr (s : State) (a : Nat) (bs : List Byte) :
    (s.writeBytes a bs).srcAddr = s.srcAddr := rfl
@[simp] theorem State.writeBytes_srcLen (s : State) (a : Nat) (bs : List Byte) :
    (s.writeBytes a bs).srcLen = s.srcLen := rfl
@[simp] theorem State.writeBytes_dstAddr (s : State) (a : Nat) (bs : List Byte) :
    (s.writeBytes a bs).dstAddr = s.dstAddr := rfl
@[simp] theorem State.writeBytes_dstCap (s : State) (a : Nat) (bs : List Byte) :
    (s.writeBytes a bs).dstCap = s.dstCap := rfl
@[simp] theorem State.writeBytes_maxRank (s : State) (a : Nat) (bs : List Byte) :
    (s.writeBytes a bs).maxRank = s.maxRank := rfl
@[simp] theorem State.writeBytes_epsLo (s : State) (a : Nat) (bs : List Byte) :
    (s.writeBytes a bs).epsLo = s.epsLo := rfl
@[simp] theorem State.writeBytes_epsHi (s : State) (a : Nat) (bs : List Byte) :
    (s.writeBytes a bs).epsHi = s.epsHi := rfl
@[simp] theorem State.writeBytes_origLenLo (s : State) (a : Nat) (bs : List Byte) :
    (s.writeBytes a bs).origLenLo = s.origLenLo := rfl
@[simp] theorem State.writeBytes_origLenHi (s : State) (a : Nat) (bs : List Byte) :
    (s.writeBytes a bs).origLenHi = s.origLenHi := rfl
@[simp] theorem State.writeBytes_resultLen (s : State) (a : Nat) (bs : List Byte) :
    (s.writeBytes a bs).resultLen = s.resultLen := rfl
@[simp] theorem State.writeBytes_consumed (s : State) (a : Nat) (bs : List Byte) :
    (s.writeBytes a bs).consumed = s.consumed := rfl
@[simp] theorem State.writeBytes_aux0 (s : State) (a : Nat) (bs : List Byte) :
    (s.writeBytes a bs).aux0 = s.aux0 := rfl
@[simp] theorem State.writeBytes_aux1 (s : State) (a : Nat) (bs : List Byte) :
    (s.writeBytes a bs).aux1 = s.aux1 := rfl
@[simp] theorem State.writeBytes_tsel (s : State) (a : Nat) (bs : List Byte) :
    (s.writeBytes a bs).tsel = s.tsel := rfl
@[simp] theorem State.writeBytes_freq (s : State) (a : Nat) (bs : List Byte) :
    (s.writeBytes a bs).freq = s.freq := rfl
@[simp] theorem State.writeBytes_len (s : State) (a : Nat) (bs : List Byte) :
    (s.writeBytes a bs).len = s.len := rfl
@[simp] theorem State.writeBytes_code (s : State) (a : Nat) (bs : List Byte) :
    (s.writeBytes a bs).code = s.code := rfl
@[simp] theorem State.writeBytes_buf (s : State) (a : Nat) (bs : List Byte) :
    (s.writeBytes a bs).buf = Memory.write s.buf a bs := rfl
@[simp] theorem State.writeBytes_engine (s : State) (a : Nat) (bs : List Byte) :
    (s.writeBytes a bs).engine = s.engine := rfl
@[simp] theorem State.writeBytes_bufSeed (s : State) (a : Nat) (bs : List Byte) :
    (s.writeBytes a bs).bufSeed = s.bufSeed := rfl
@[simp] theorem State.writeBytes_draws (s : State) (a : Nat) (bs : List Byte) :
    (s.writeBytes a bs).draws = s.draws := rfl
@[simp] theorem State.writeBytes_agenda (s : State) (a : Nat) (bs : List Byte) :
    (s.writeBytes a bs).agenda = s.agenda := rfl
@[simp] theorem State.writeBytes_reply (s : State) (a : Nat) (bs : List Byte) :
    (s.writeBytes a bs).reply = s.reply := rfl

/-! ## `State.writeDst` -/

@[simp] theorem State.writeDst_cmd (s : State) (bs : List Byte) :
    (s.writeDst bs).cmd = s.cmd := rfl
@[simp] theorem State.writeDst_done (s : State) (bs : List Byte) :
    (s.writeDst bs).done = s.done := rfl
@[simp] theorem State.writeDst_tableValid (s : State) (bs : List Byte) :
    (s.writeDst bs).tableValid = s.tableValid := rfl
@[simp] theorem State.writeDst_overrun (s : State) (bs : List Byte) :
    (s.writeDst bs).overrun = s.overrun := rfl
@[simp] theorem State.writeDst_hostConflict (s : State) (bs : List Byte) :
    (s.writeDst bs).hostConflict = s.hostConflict := rfl
@[simp] theorem State.writeDst_errCode (s : State) (bs : List Byte) :
    (s.writeDst bs).errCode = s.errCode := rfl
@[simp] theorem State.writeDst_errDetail (s : State) (bs : List Byte) :
    (s.writeDst bs).errDetail = s.errDetail := rfl
@[simp] theorem State.writeDst_lastOp (s : State) (bs : List Byte) :
    (s.writeDst bs).lastOp = s.lastOp := rfl
@[simp] theorem State.writeDst_doneIE (s : State) (bs : List Byte) :
    (s.writeDst bs).doneIE = s.doneIE := rfl
@[simp] theorem State.writeDst_srcAddr (s : State) (bs : List Byte) :
    (s.writeDst bs).srcAddr = s.srcAddr := rfl
@[simp] theorem State.writeDst_srcLen (s : State) (bs : List Byte) :
    (s.writeDst bs).srcLen = s.srcLen := rfl
@[simp] theorem State.writeDst_dstAddr (s : State) (bs : List Byte) :
    (s.writeDst bs).dstAddr = s.dstAddr := rfl
@[simp] theorem State.writeDst_dstCap (s : State) (bs : List Byte) :
    (s.writeDst bs).dstCap = s.dstCap := rfl
@[simp] theorem State.writeDst_maxRank (s : State) (bs : List Byte) :
    (s.writeDst bs).maxRank = s.maxRank := rfl
@[simp] theorem State.writeDst_epsLo (s : State) (bs : List Byte) :
    (s.writeDst bs).epsLo = s.epsLo := rfl
@[simp] theorem State.writeDst_epsHi (s : State) (bs : List Byte) :
    (s.writeDst bs).epsHi = s.epsHi := rfl
@[simp] theorem State.writeDst_origLenLo (s : State) (bs : List Byte) :
    (s.writeDst bs).origLenLo = s.origLenLo := rfl
@[simp] theorem State.writeDst_origLenHi (s : State) (bs : List Byte) :
    (s.writeDst bs).origLenHi = s.origLenHi := rfl
@[simp] theorem State.writeDst_resultLen (s : State) (bs : List Byte) :
    (s.writeDst bs).resultLen = s.resultLen := rfl
@[simp] theorem State.writeDst_consumed (s : State) (bs : List Byte) :
    (s.writeDst bs).consumed = s.consumed := rfl
@[simp] theorem State.writeDst_aux0 (s : State) (bs : List Byte) :
    (s.writeDst bs).aux0 = s.aux0 := rfl
@[simp] theorem State.writeDst_aux1 (s : State) (bs : List Byte) :
    (s.writeDst bs).aux1 = s.aux1 := rfl
@[simp] theorem State.writeDst_tsel (s : State) (bs : List Byte) :
    (s.writeDst bs).tsel = s.tsel := rfl
@[simp] theorem State.writeDst_freq (s : State) (bs : List Byte) :
    (s.writeDst bs).freq = s.freq := rfl
@[simp] theorem State.writeDst_len (s : State) (bs : List Byte) :
    (s.writeDst bs).len = s.len := rfl
@[simp] theorem State.writeDst_code (s : State) (bs : List Byte) :
    (s.writeDst bs).code = s.code := rfl
@[simp] theorem State.writeDst_buf (s : State) (bs : List Byte) :
    (s.writeDst bs).buf = Memory.write s.buf s.dstAddr.toNat bs := rfl
@[simp] theorem State.writeDst_engine (s : State) (bs : List Byte) :
    (s.writeDst bs).engine = s.engine := rfl
@[simp] theorem State.writeDst_bufSeed (s : State) (bs : List Byte) :
    (s.writeDst bs).bufSeed = s.bufSeed := rfl
@[simp] theorem State.writeDst_draws (s : State) (bs : List Byte) :
    (s.writeDst bs).draws = s.draws := rfl
@[simp] theorem State.writeDst_agenda (s : State) (bs : List Byte) :
    (s.writeDst bs).agenda = s.agenda := rfl
@[simp] theorem State.writeDst_reply (s : State) (bs : List Byte) :
    (s.writeDst bs).reply = s.reply := rfl

/-! ## `State.useDraw` -/

@[simp] theorem State.useDraw_cmd (s : State) :
    (s.useDraw).cmd = s.cmd := rfl
@[simp] theorem State.useDraw_done (s : State) :
    (s.useDraw).done = s.done := rfl
@[simp] theorem State.useDraw_tableValid (s : State) :
    (s.useDraw).tableValid = s.tableValid := rfl
@[simp] theorem State.useDraw_overrun (s : State) :
    (s.useDraw).overrun = s.overrun := rfl
@[simp] theorem State.useDraw_hostConflict (s : State) :
    (s.useDraw).hostConflict = s.hostConflict := rfl
@[simp] theorem State.useDraw_errCode (s : State) :
    (s.useDraw).errCode = s.errCode := rfl
@[simp] theorem State.useDraw_errDetail (s : State) :
    (s.useDraw).errDetail = s.errDetail := rfl
@[simp] theorem State.useDraw_lastOp (s : State) :
    (s.useDraw).lastOp = s.lastOp := rfl
@[simp] theorem State.useDraw_doneIE (s : State) :
    (s.useDraw).doneIE = s.doneIE := rfl
@[simp] theorem State.useDraw_srcAddr (s : State) :
    (s.useDraw).srcAddr = s.srcAddr := rfl
@[simp] theorem State.useDraw_srcLen (s : State) :
    (s.useDraw).srcLen = s.srcLen := rfl
@[simp] theorem State.useDraw_dstAddr (s : State) :
    (s.useDraw).dstAddr = s.dstAddr := rfl
@[simp] theorem State.useDraw_dstCap (s : State) :
    (s.useDraw).dstCap = s.dstCap := rfl
@[simp] theorem State.useDraw_maxRank (s : State) :
    (s.useDraw).maxRank = s.maxRank := rfl
@[simp] theorem State.useDraw_epsLo (s : State) :
    (s.useDraw).epsLo = s.epsLo := rfl
@[simp] theorem State.useDraw_epsHi (s : State) :
    (s.useDraw).epsHi = s.epsHi := rfl
@[simp] theorem State.useDraw_origLenLo (s : State) :
    (s.useDraw).origLenLo = s.origLenLo := rfl
@[simp] theorem State.useDraw_origLenHi (s : State) :
    (s.useDraw).origLenHi = s.origLenHi := rfl
@[simp] theorem State.useDraw_resultLen (s : State) :
    (s.useDraw).resultLen = s.resultLen := rfl
@[simp] theorem State.useDraw_consumed (s : State) :
    (s.useDraw).consumed = s.consumed := rfl
@[simp] theorem State.useDraw_aux0 (s : State) :
    (s.useDraw).aux0 = s.aux0 := rfl
@[simp] theorem State.useDraw_aux1 (s : State) :
    (s.useDraw).aux1 = s.aux1 := rfl
@[simp] theorem State.useDraw_tsel (s : State) :
    (s.useDraw).tsel = s.tsel := rfl
@[simp] theorem State.useDraw_freq (s : State) :
    (s.useDraw).freq = s.freq := rfl
@[simp] theorem State.useDraw_len (s : State) :
    (s.useDraw).len = s.len := rfl
@[simp] theorem State.useDraw_code (s : State) :
    (s.useDraw).code = s.code := rfl
@[simp] theorem State.useDraw_buf (s : State) :
    (s.useDraw).buf = s.buf := rfl
@[simp] theorem State.useDraw_engine (s : State) :
    (s.useDraw).engine = s.engine := rfl
@[simp] theorem State.useDraw_bufSeed (s : State) :
    (s.useDraw).bufSeed = s.bufSeed := rfl
@[simp] theorem State.useDraw_draws (s : State) :
    (s.useDraw).draws = s.draws + 1 := rfl
@[simp] theorem State.useDraw_agenda (s : State) :
    (s.useDraw).agenda = s.agenda := rfl
@[simp] theorem State.useDraw_reply (s : State) :
    (s.useDraw).reply = s.reply := rfl

/-! ## `State.scrambleDst` -/

@[simp] theorem State.scrambleDst_cmd (s : State) :
    (s.scrambleDst).cmd = s.cmd := rfl
@[simp] theorem State.scrambleDst_done (s : State) :
    (s.scrambleDst).done = s.done := rfl
@[simp] theorem State.scrambleDst_tableValid (s : State) :
    (s.scrambleDst).tableValid = s.tableValid := rfl
@[simp] theorem State.scrambleDst_overrun (s : State) :
    (s.scrambleDst).overrun = s.overrun := rfl
@[simp] theorem State.scrambleDst_hostConflict (s : State) :
    (s.scrambleDst).hostConflict = s.hostConflict := rfl
@[simp] theorem State.scrambleDst_errCode (s : State) :
    (s.scrambleDst).errCode = s.errCode := rfl
@[simp] theorem State.scrambleDst_errDetail (s : State) :
    (s.scrambleDst).errDetail = s.errDetail := rfl
@[simp] theorem State.scrambleDst_lastOp (s : State) :
    (s.scrambleDst).lastOp = s.lastOp := rfl
@[simp] theorem State.scrambleDst_doneIE (s : State) :
    (s.scrambleDst).doneIE = s.doneIE := rfl
@[simp] theorem State.scrambleDst_srcAddr (s : State) :
    (s.scrambleDst).srcAddr = s.srcAddr := rfl
@[simp] theorem State.scrambleDst_srcLen (s : State) :
    (s.scrambleDst).srcLen = s.srcLen := rfl
@[simp] theorem State.scrambleDst_dstAddr (s : State) :
    (s.scrambleDst).dstAddr = s.dstAddr := rfl
@[simp] theorem State.scrambleDst_dstCap (s : State) :
    (s.scrambleDst).dstCap = s.dstCap := rfl
@[simp] theorem State.scrambleDst_maxRank (s : State) :
    (s.scrambleDst).maxRank = s.maxRank := rfl
@[simp] theorem State.scrambleDst_epsLo (s : State) :
    (s.scrambleDst).epsLo = s.epsLo := rfl
@[simp] theorem State.scrambleDst_epsHi (s : State) :
    (s.scrambleDst).epsHi = s.epsHi := rfl
@[simp] theorem State.scrambleDst_origLenLo (s : State) :
    (s.scrambleDst).origLenLo = s.origLenLo := rfl
@[simp] theorem State.scrambleDst_origLenHi (s : State) :
    (s.scrambleDst).origLenHi = s.origLenHi := rfl
@[simp] theorem State.scrambleDst_resultLen (s : State) :
    (s.scrambleDst).resultLen = s.resultLen := rfl
@[simp] theorem State.scrambleDst_consumed (s : State) :
    (s.scrambleDst).consumed = s.consumed := rfl
@[simp] theorem State.scrambleDst_aux0 (s : State) :
    (s.scrambleDst).aux0 = s.aux0 := rfl
@[simp] theorem State.scrambleDst_aux1 (s : State) :
    (s.scrambleDst).aux1 = s.aux1 := rfl
@[simp] theorem State.scrambleDst_tsel (s : State) :
    (s.scrambleDst).tsel = s.tsel := rfl
@[simp] theorem State.scrambleDst_freq (s : State) :
    (s.scrambleDst).freq = s.freq := rfl
@[simp] theorem State.scrambleDst_len (s : State) :
    (s.scrambleDst).len = s.len := rfl
@[simp] theorem State.scrambleDst_code (s : State) :
    (s.scrambleDst).code = s.code := rfl
@[simp] theorem State.scrambleDst_buf (s : State) :
    (s.scrambleDst).buf = Memory.write s.buf s.dstAddr.toNat (drawBytes s.draws s.dstCap.toNat) := rfl
@[simp] theorem State.scrambleDst_engine (s : State) :
    (s.scrambleDst).engine = s.engine := rfl
@[simp] theorem State.scrambleDst_bufSeed (s : State) :
    (s.scrambleDst).bufSeed = s.bufSeed := rfl
@[simp] theorem State.scrambleDst_draws (s : State) :
    (s.scrambleDst).draws = s.draws + 1 := rfl
@[simp] theorem State.scrambleDst_agenda (s : State) :
    (s.scrambleDst).agenda = s.agenda := rfl
@[simp] theorem State.scrambleDst_reply (s : State) :
    (s.scrambleDst).reply = s.reply := rfl

/-! ## `State.issue` -/

@[simp] theorem State.issue_cmd (s : State) (w : Word) :
    (s.issue w).cmd = w := rfl
@[simp] theorem State.issue_done (s : State) (w : Word) :
    (s.issue w).done = false := rfl
@[simp] theorem State.issue_tableValid (s : State) (w : Word) :
    (s.issue w).tableValid = s.tableValid := rfl
@[simp] theorem State.issue_overrun (s : State) (w : Word) :
    (s.issue w).overrun = s.overrun := rfl
@[simp] theorem State.issue_hostConflict (s : State) (w : Word) :
    (s.issue w).hostConflict = s.hostConflict := rfl
@[simp] theorem State.issue_errCode (s : State) (w : Word) :
    (s.issue w).errCode = .none := rfl
@[simp] theorem State.issue_errDetail (s : State) (w : Word) :
    (s.issue w).errDetail = .none := rfl
@[simp] theorem State.issue_lastOp (s : State) (w : Word) :
    (s.issue w).lastOp = opByte w := rfl
@[simp] theorem State.issue_doneIE (s : State) (w : Word) :
    (s.issue w).doneIE = s.doneIE := rfl
@[simp] theorem State.issue_srcAddr (s : State) (w : Word) :
    (s.issue w).srcAddr = s.srcAddr := rfl
@[simp] theorem State.issue_srcLen (s : State) (w : Word) :
    (s.issue w).srcLen = s.srcLen := rfl
@[simp] theorem State.issue_dstAddr (s : State) (w : Word) :
    (s.issue w).dstAddr = s.dstAddr := rfl
@[simp] theorem State.issue_dstCap (s : State) (w : Word) :
    (s.issue w).dstCap = s.dstCap := rfl
@[simp] theorem State.issue_maxRank (s : State) (w : Word) :
    (s.issue w).maxRank = s.maxRank := rfl
@[simp] theorem State.issue_epsLo (s : State) (w : Word) :
    (s.issue w).epsLo = s.epsLo := rfl
@[simp] theorem State.issue_epsHi (s : State) (w : Word) :
    (s.issue w).epsHi = s.epsHi := rfl
@[simp] theorem State.issue_origLenLo (s : State) (w : Word) :
    (s.issue w).origLenLo = s.origLenLo := rfl
@[simp] theorem State.issue_origLenHi (s : State) (w : Word) :
    (s.issue w).origLenHi = s.origLenHi := rfl
@[simp] theorem State.issue_resultLen (s : State) (w : Word) :
    (s.issue w).resultLen = s.resultLen := rfl
@[simp] theorem State.issue_consumed (s : State) (w : Word) :
    (s.issue w).consumed = s.consumed := rfl
@[simp] theorem State.issue_aux0 (s : State) (w : Word) :
    (s.issue w).aux0 = s.aux0 := rfl
@[simp] theorem State.issue_aux1 (s : State) (w : Word) :
    (s.issue w).aux1 = s.aux1 := rfl
@[simp] theorem State.issue_tsel (s : State) (w : Word) :
    (s.issue w).tsel = s.tsel := rfl
@[simp] theorem State.issue_freq (s : State) (w : Word) :
    (s.issue w).freq = s.freq := rfl
@[simp] theorem State.issue_len (s : State) (w : Word) :
    (s.issue w).len = s.len := rfl
@[simp] theorem State.issue_code (s : State) (w : Word) :
    (s.issue w).code = s.code := rfl
@[simp] theorem State.issue_buf (s : State) (w : Word) :
    (s.issue w).buf = s.buf := rfl
@[simp] theorem State.issue_engine (s : State) (w : Word) :
    (s.issue w).engine = .busy w := rfl
@[simp] theorem State.issue_bufSeed (s : State) (w : Word) :
    (s.issue w).bufSeed = s.bufSeed := rfl
@[simp] theorem State.issue_draws (s : State) (w : Word) :
    (s.issue w).draws = s.draws := rfl
@[simp] theorem State.issue_agenda (s : State) (w : Word) :
    (s.issue w).agenda = s.agenda := rfl
@[simp] theorem State.issue_reply (s : State) (w : Word) :
    (s.issue w).reply = s.reply := rfl

/-! ## `State.completeSuccess` -/

@[simp] theorem State.completeSuccess_cmd (s : State) (r : Results) :
    (s.completeSuccess r).cmd = s.cmd := rfl
@[simp] theorem State.completeSuccess_done (s : State) (r : Results) :
    (s.completeSuccess r).done = true := rfl
@[simp] theorem State.completeSuccess_tableValid (s : State) (r : Results) :
    (s.completeSuccess r).tableValid = s.tableValid := rfl
@[simp] theorem State.completeSuccess_overrun (s : State) (r : Results) :
    (s.completeSuccess r).overrun = s.overrun := rfl
@[simp] theorem State.completeSuccess_hostConflict (s : State) (r : Results) :
    (s.completeSuccess r).hostConflict = s.hostConflict := rfl
@[simp] theorem State.completeSuccess_errCode (s : State) (r : Results) :
    (s.completeSuccess r).errCode = .none := rfl
@[simp] theorem State.completeSuccess_errDetail (s : State) (r : Results) :
    (s.completeSuccess r).errDetail = .none := rfl
@[simp] theorem State.completeSuccess_lastOp (s : State) (r : Results) :
    (s.completeSuccess r).lastOp = s.lastOp := rfl
@[simp] theorem State.completeSuccess_doneIE (s : State) (r : Results) :
    (s.completeSuccess r).doneIE = s.doneIE := rfl
@[simp] theorem State.completeSuccess_srcAddr (s : State) (r : Results) :
    (s.completeSuccess r).srcAddr = s.srcAddr := rfl
@[simp] theorem State.completeSuccess_srcLen (s : State) (r : Results) :
    (s.completeSuccess r).srcLen = s.srcLen := rfl
@[simp] theorem State.completeSuccess_dstAddr (s : State) (r : Results) :
    (s.completeSuccess r).dstAddr = s.dstAddr := rfl
@[simp] theorem State.completeSuccess_dstCap (s : State) (r : Results) :
    (s.completeSuccess r).dstCap = s.dstCap := rfl
@[simp] theorem State.completeSuccess_maxRank (s : State) (r : Results) :
    (s.completeSuccess r).maxRank = s.maxRank := rfl
@[simp] theorem State.completeSuccess_epsLo (s : State) (r : Results) :
    (s.completeSuccess r).epsLo = s.epsLo := rfl
@[simp] theorem State.completeSuccess_epsHi (s : State) (r : Results) :
    (s.completeSuccess r).epsHi = s.epsHi := rfl
@[simp] theorem State.completeSuccess_origLenLo (s : State) (r : Results) :
    (s.completeSuccess r).origLenLo = s.origLenLo := rfl
@[simp] theorem State.completeSuccess_origLenHi (s : State) (r : Results) :
    (s.completeSuccess r).origLenHi = s.origLenHi := rfl
@[simp] theorem State.completeSuccess_resultLen (s : State) (r : Results) :
    (s.completeSuccess r).resultLen = BitVec.ofNat 32 r.resultLen := rfl
@[simp] theorem State.completeSuccess_consumed (s : State) (r : Results) :
    (s.completeSuccess r).consumed = BitVec.ofNat 32 r.consumed := rfl
@[simp] theorem State.completeSuccess_aux0 (s : State) (r : Results) :
    (s.completeSuccess r).aux0 = BitVec.ofNat 32 r.aux0 := rfl
@[simp] theorem State.completeSuccess_aux1 (s : State) (r : Results) :
    (s.completeSuccess r).aux1 = BitVec.ofNat 32 r.aux1 := rfl
@[simp] theorem State.completeSuccess_tsel (s : State) (r : Results) :
    (s.completeSuccess r).tsel = s.tsel := rfl
@[simp] theorem State.completeSuccess_freq (s : State) (r : Results) :
    (s.completeSuccess r).freq = s.freq := rfl
@[simp] theorem State.completeSuccess_len (s : State) (r : Results) :
    (s.completeSuccess r).len = s.len := rfl
@[simp] theorem State.completeSuccess_code (s : State) (r : Results) :
    (s.completeSuccess r).code = s.code := rfl
@[simp] theorem State.completeSuccess_buf (s : State) (r : Results) :
    (s.completeSuccess r).buf = s.buf := rfl
@[simp] theorem State.completeSuccess_engine (s : State) (r : Results) :
    (s.completeSuccess r).engine = .idle := rfl
@[simp] theorem State.completeSuccess_bufSeed (s : State) (r : Results) :
    (s.completeSuccess r).bufSeed = s.bufSeed := rfl
@[simp] theorem State.completeSuccess_draws (s : State) (r : Results) :
    (s.completeSuccess r).draws = s.draws := rfl
@[simp] theorem State.completeSuccess_agenda (s : State) (r : Results) :
    (s.completeSuccess r).agenda = s.agenda := rfl
@[simp] theorem State.completeSuccess_reply (s : State) (r : Results) :
    (s.completeSuccess r).reply = s.reply := rfl

/-! ## `State.completeFailure` -/

@[simp] theorem State.completeFailure_cmd (s : State) (e : CmdError) :
    (s.completeFailure e).cmd = s.cmd := rfl
@[simp] theorem State.completeFailure_done (s : State) (e : CmdError) :
    (s.completeFailure e).done = true := rfl
@[simp] theorem State.completeFailure_tableValid (s : State) (e : CmdError) :
    (s.completeFailure e).tableValid = s.tableValid := rfl
@[simp] theorem State.completeFailure_overrun (s : State) (e : CmdError) :
    (s.completeFailure e).overrun = s.overrun := rfl
@[simp] theorem State.completeFailure_hostConflict (s : State) (e : CmdError) :
    (s.completeFailure e).hostConflict = s.hostConflict := rfl
@[simp] theorem State.completeFailure_errCode (s : State) (e : CmdError) :
    (s.completeFailure e).errCode = e.code := rfl
@[simp] theorem State.completeFailure_errDetail (s : State) (e : CmdError) :
    (s.completeFailure e).errDetail = e.detail := rfl
@[simp] theorem State.completeFailure_lastOp (s : State) (e : CmdError) :
    (s.completeFailure e).lastOp = s.lastOp := rfl
@[simp] theorem State.completeFailure_doneIE (s : State) (e : CmdError) :
    (s.completeFailure e).doneIE = s.doneIE := rfl
@[simp] theorem State.completeFailure_srcAddr (s : State) (e : CmdError) :
    (s.completeFailure e).srcAddr = s.srcAddr := rfl
@[simp] theorem State.completeFailure_srcLen (s : State) (e : CmdError) :
    (s.completeFailure e).srcLen = s.srcLen := rfl
@[simp] theorem State.completeFailure_dstAddr (s : State) (e : CmdError) :
    (s.completeFailure e).dstAddr = s.dstAddr := rfl
@[simp] theorem State.completeFailure_dstCap (s : State) (e : CmdError) :
    (s.completeFailure e).dstCap = s.dstCap := rfl
@[simp] theorem State.completeFailure_maxRank (s : State) (e : CmdError) :
    (s.completeFailure e).maxRank = s.maxRank := rfl
@[simp] theorem State.completeFailure_epsLo (s : State) (e : CmdError) :
    (s.completeFailure e).epsLo = s.epsLo := rfl
@[simp] theorem State.completeFailure_epsHi (s : State) (e : CmdError) :
    (s.completeFailure e).epsHi = s.epsHi := rfl
@[simp] theorem State.completeFailure_origLenLo (s : State) (e : CmdError) :
    (s.completeFailure e).origLenLo = s.origLenLo := rfl
@[simp] theorem State.completeFailure_origLenHi (s : State) (e : CmdError) :
    (s.completeFailure e).origLenHi = s.origLenHi := rfl
@[simp] theorem State.completeFailure_resultLen (s : State) (e : CmdError) :
    (s.completeFailure e).resultLen = 0 := rfl
@[simp] theorem State.completeFailure_consumed (s : State) (e : CmdError) :
    (s.completeFailure e).consumed = 0 := rfl
@[simp] theorem State.completeFailure_aux0 (s : State) (e : CmdError) :
    (s.completeFailure e).aux0 = 0 := rfl
@[simp] theorem State.completeFailure_aux1 (s : State) (e : CmdError) :
    (s.completeFailure e).aux1 = 0 := rfl
@[simp] theorem State.completeFailure_tsel (s : State) (e : CmdError) :
    (s.completeFailure e).tsel = s.tsel := rfl
@[simp] theorem State.completeFailure_freq (s : State) (e : CmdError) :
    (s.completeFailure e).freq = s.freq := rfl
@[simp] theorem State.completeFailure_len (s : State) (e : CmdError) :
    (s.completeFailure e).len = s.len := rfl
@[simp] theorem State.completeFailure_code (s : State) (e : CmdError) :
    (s.completeFailure e).code = s.code := rfl
@[simp] theorem State.completeFailure_buf (s : State) (e : CmdError) :
    (s.completeFailure e).buf = s.buf := rfl
@[simp] theorem State.completeFailure_engine (s : State) (e : CmdError) :
    (s.completeFailure e).engine = .idle := rfl
@[simp] theorem State.completeFailure_bufSeed (s : State) (e : CmdError) :
    (s.completeFailure e).bufSeed = s.bufSeed := rfl
@[simp] theorem State.completeFailure_draws (s : State) (e : CmdError) :
    (s.completeFailure e).draws = s.draws := rfl
@[simp] theorem State.completeFailure_agenda (s : State) (e : CmdError) :
    (s.completeFailure e).agenda = s.agenda := rfl
@[simp] theorem State.completeFailure_reply (s : State) (e : CmdError) :
    (s.completeFailure e).reply = s.reply := rfl

/-! ## `State.setFreq` -/

@[simp] theorem State.setFreq_cmd (s : State) (f : Table (BitVec 64)) :
    (s.setFreq f).cmd = s.cmd := rfl
@[simp] theorem State.setFreq_done (s : State) (f : Table (BitVec 64)) :
    (s.setFreq f).done = s.done := rfl
@[simp] theorem State.setFreq_tableValid (s : State) (f : Table (BitVec 64)) :
    (s.setFreq f).tableValid = s.tableValid := rfl
@[simp] theorem State.setFreq_overrun (s : State) (f : Table (BitVec 64)) :
    (s.setFreq f).overrun = s.overrun := rfl
@[simp] theorem State.setFreq_hostConflict (s : State) (f : Table (BitVec 64)) :
    (s.setFreq f).hostConflict = s.hostConflict := rfl
@[simp] theorem State.setFreq_errCode (s : State) (f : Table (BitVec 64)) :
    (s.setFreq f).errCode = s.errCode := rfl
@[simp] theorem State.setFreq_errDetail (s : State) (f : Table (BitVec 64)) :
    (s.setFreq f).errDetail = s.errDetail := rfl
@[simp] theorem State.setFreq_lastOp (s : State) (f : Table (BitVec 64)) :
    (s.setFreq f).lastOp = s.lastOp := rfl
@[simp] theorem State.setFreq_doneIE (s : State) (f : Table (BitVec 64)) :
    (s.setFreq f).doneIE = s.doneIE := rfl
@[simp] theorem State.setFreq_srcAddr (s : State) (f : Table (BitVec 64)) :
    (s.setFreq f).srcAddr = s.srcAddr := rfl
@[simp] theorem State.setFreq_srcLen (s : State) (f : Table (BitVec 64)) :
    (s.setFreq f).srcLen = s.srcLen := rfl
@[simp] theorem State.setFreq_dstAddr (s : State) (f : Table (BitVec 64)) :
    (s.setFreq f).dstAddr = s.dstAddr := rfl
@[simp] theorem State.setFreq_dstCap (s : State) (f : Table (BitVec 64)) :
    (s.setFreq f).dstCap = s.dstCap := rfl
@[simp] theorem State.setFreq_maxRank (s : State) (f : Table (BitVec 64)) :
    (s.setFreq f).maxRank = s.maxRank := rfl
@[simp] theorem State.setFreq_epsLo (s : State) (f : Table (BitVec 64)) :
    (s.setFreq f).epsLo = s.epsLo := rfl
@[simp] theorem State.setFreq_epsHi (s : State) (f : Table (BitVec 64)) :
    (s.setFreq f).epsHi = s.epsHi := rfl
@[simp] theorem State.setFreq_origLenLo (s : State) (f : Table (BitVec 64)) :
    (s.setFreq f).origLenLo = s.origLenLo := rfl
@[simp] theorem State.setFreq_origLenHi (s : State) (f : Table (BitVec 64)) :
    (s.setFreq f).origLenHi = s.origLenHi := rfl
@[simp] theorem State.setFreq_resultLen (s : State) (f : Table (BitVec 64)) :
    (s.setFreq f).resultLen = s.resultLen := rfl
@[simp] theorem State.setFreq_consumed (s : State) (f : Table (BitVec 64)) :
    (s.setFreq f).consumed = s.consumed := rfl
@[simp] theorem State.setFreq_aux0 (s : State) (f : Table (BitVec 64)) :
    (s.setFreq f).aux0 = s.aux0 := rfl
@[simp] theorem State.setFreq_aux1 (s : State) (f : Table (BitVec 64)) :
    (s.setFreq f).aux1 = s.aux1 := rfl
@[simp] theorem State.setFreq_tsel (s : State) (f : Table (BitVec 64)) :
    (s.setFreq f).tsel = s.tsel := rfl
@[simp] theorem State.setFreq_freq (s : State) (f : Table (BitVec 64)) :
    (s.setFreq f).freq = f := rfl
@[simp] theorem State.setFreq_len (s : State) (f : Table (BitVec 64)) :
    (s.setFreq f).len = s.len := rfl
@[simp] theorem State.setFreq_code (s : State) (f : Table (BitVec 64)) :
    (s.setFreq f).code = s.code := rfl
@[simp] theorem State.setFreq_buf (s : State) (f : Table (BitVec 64)) :
    (s.setFreq f).buf = s.buf := rfl
@[simp] theorem State.setFreq_engine (s : State) (f : Table (BitVec 64)) :
    (s.setFreq f).engine = s.engine := rfl
@[simp] theorem State.setFreq_bufSeed (s : State) (f : Table (BitVec 64)) :
    (s.setFreq f).bufSeed = s.bufSeed := rfl
@[simp] theorem State.setFreq_draws (s : State) (f : Table (BitVec 64)) :
    (s.setFreq f).draws = s.draws := rfl
@[simp] theorem State.setFreq_agenda (s : State) (f : Table (BitVec 64)) :
    (s.setFreq f).agenda = s.agenda := rfl
@[simp] theorem State.setFreq_reply (s : State) (f : Table (BitVec 64)) :
    (s.setFreq f).reply = s.reply := rfl

/-! ## `State.setTable` -/

@[simp] theorem State.setTable_cmd (s : State) (l : Table (BitVec 8)) (c : Table (BitVec 255)) (v : Bool) :
    (s.setTable l c v).cmd = s.cmd := rfl
@[simp] theorem State.setTable_done (s : State) (l : Table (BitVec 8)) (c : Table (BitVec 255)) (v : Bool) :
    (s.setTable l c v).done = s.done := rfl
@[simp] theorem State.setTable_tableValid (s : State) (l : Table (BitVec 8)) (c : Table (BitVec 255)) (v : Bool) :
    (s.setTable l c v).tableValid = v := rfl
@[simp] theorem State.setTable_overrun (s : State) (l : Table (BitVec 8)) (c : Table (BitVec 255)) (v : Bool) :
    (s.setTable l c v).overrun = s.overrun := rfl
@[simp] theorem State.setTable_hostConflict (s : State) (l : Table (BitVec 8)) (c : Table (BitVec 255)) (v : Bool) :
    (s.setTable l c v).hostConflict = s.hostConflict := rfl
@[simp] theorem State.setTable_errCode (s : State) (l : Table (BitVec 8)) (c : Table (BitVec 255)) (v : Bool) :
    (s.setTable l c v).errCode = s.errCode := rfl
@[simp] theorem State.setTable_errDetail (s : State) (l : Table (BitVec 8)) (c : Table (BitVec 255)) (v : Bool) :
    (s.setTable l c v).errDetail = s.errDetail := rfl
@[simp] theorem State.setTable_lastOp (s : State) (l : Table (BitVec 8)) (c : Table (BitVec 255)) (v : Bool) :
    (s.setTable l c v).lastOp = s.lastOp := rfl
@[simp] theorem State.setTable_doneIE (s : State) (l : Table (BitVec 8)) (c : Table (BitVec 255)) (v : Bool) :
    (s.setTable l c v).doneIE = s.doneIE := rfl
@[simp] theorem State.setTable_srcAddr (s : State) (l : Table (BitVec 8)) (c : Table (BitVec 255)) (v : Bool) :
    (s.setTable l c v).srcAddr = s.srcAddr := rfl
@[simp] theorem State.setTable_srcLen (s : State) (l : Table (BitVec 8)) (c : Table (BitVec 255)) (v : Bool) :
    (s.setTable l c v).srcLen = s.srcLen := rfl
@[simp] theorem State.setTable_dstAddr (s : State) (l : Table (BitVec 8)) (c : Table (BitVec 255)) (v : Bool) :
    (s.setTable l c v).dstAddr = s.dstAddr := rfl
@[simp] theorem State.setTable_dstCap (s : State) (l : Table (BitVec 8)) (c : Table (BitVec 255)) (v : Bool) :
    (s.setTable l c v).dstCap = s.dstCap := rfl
@[simp] theorem State.setTable_maxRank (s : State) (l : Table (BitVec 8)) (c : Table (BitVec 255)) (v : Bool) :
    (s.setTable l c v).maxRank = s.maxRank := rfl
@[simp] theorem State.setTable_epsLo (s : State) (l : Table (BitVec 8)) (c : Table (BitVec 255)) (v : Bool) :
    (s.setTable l c v).epsLo = s.epsLo := rfl
@[simp] theorem State.setTable_epsHi (s : State) (l : Table (BitVec 8)) (c : Table (BitVec 255)) (v : Bool) :
    (s.setTable l c v).epsHi = s.epsHi := rfl
@[simp] theorem State.setTable_origLenLo (s : State) (l : Table (BitVec 8)) (c : Table (BitVec 255)) (v : Bool) :
    (s.setTable l c v).origLenLo = s.origLenLo := rfl
@[simp] theorem State.setTable_origLenHi (s : State) (l : Table (BitVec 8)) (c : Table (BitVec 255)) (v : Bool) :
    (s.setTable l c v).origLenHi = s.origLenHi := rfl
@[simp] theorem State.setTable_resultLen (s : State) (l : Table (BitVec 8)) (c : Table (BitVec 255)) (v : Bool) :
    (s.setTable l c v).resultLen = s.resultLen := rfl
@[simp] theorem State.setTable_consumed (s : State) (l : Table (BitVec 8)) (c : Table (BitVec 255)) (v : Bool) :
    (s.setTable l c v).consumed = s.consumed := rfl
@[simp] theorem State.setTable_aux0 (s : State) (l : Table (BitVec 8)) (c : Table (BitVec 255)) (v : Bool) :
    (s.setTable l c v).aux0 = s.aux0 := rfl
@[simp] theorem State.setTable_aux1 (s : State) (l : Table (BitVec 8)) (c : Table (BitVec 255)) (v : Bool) :
    (s.setTable l c v).aux1 = s.aux1 := rfl
@[simp] theorem State.setTable_tsel (s : State) (l : Table (BitVec 8)) (c : Table (BitVec 255)) (v : Bool) :
    (s.setTable l c v).tsel = s.tsel := rfl
@[simp] theorem State.setTable_freq (s : State) (l : Table (BitVec 8)) (c : Table (BitVec 255)) (v : Bool) :
    (s.setTable l c v).freq = s.freq := rfl
@[simp] theorem State.setTable_len (s : State) (l : Table (BitVec 8)) (c : Table (BitVec 255)) (v : Bool) :
    (s.setTable l c v).len = l := rfl
@[simp] theorem State.setTable_code (s : State) (l : Table (BitVec 8)) (c : Table (BitVec 255)) (v : Bool) :
    (s.setTable l c v).code = c := rfl
@[simp] theorem State.setTable_buf (s : State) (l : Table (BitVec 8)) (c : Table (BitVec 255)) (v : Bool) :
    (s.setTable l c v).buf = s.buf := rfl
@[simp] theorem State.setTable_engine (s : State) (l : Table (BitVec 8)) (c : Table (BitVec 255)) (v : Bool) :
    (s.setTable l c v).engine = s.engine := rfl
@[simp] theorem State.setTable_bufSeed (s : State) (l : Table (BitVec 8)) (c : Table (BitVec 255)) (v : Bool) :
    (s.setTable l c v).bufSeed = s.bufSeed := rfl
@[simp] theorem State.setTable_draws (s : State) (l : Table (BitVec 8)) (c : Table (BitVec 255)) (v : Bool) :
    (s.setTable l c v).draws = s.draws := rfl
@[simp] theorem State.setTable_agenda (s : State) (l : Table (BitVec 8)) (c : Table (BitVec 255)) (v : Bool) :
    (s.setTable l c v).agenda = s.agenda := rfl
@[simp] theorem State.setTable_reply (s : State) (l : Table (BitVec 8)) (c : Table (BitVec 255)) (v : Bool) :
    (s.setTable l c v).reply = s.reply := rfl

/-! ## `State.setOrigLen` -/

@[simp] theorem State.setOrigLen_cmd (s : State) (v : Nat) :
    (s.setOrigLen v).cmd = s.cmd := rfl
@[simp] theorem State.setOrigLen_done (s : State) (v : Nat) :
    (s.setOrigLen v).done = s.done := rfl
@[simp] theorem State.setOrigLen_tableValid (s : State) (v : Nat) :
    (s.setOrigLen v).tableValid = s.tableValid := rfl
@[simp] theorem State.setOrigLen_overrun (s : State) (v : Nat) :
    (s.setOrigLen v).overrun = s.overrun := rfl
@[simp] theorem State.setOrigLen_hostConflict (s : State) (v : Nat) :
    (s.setOrigLen v).hostConflict = s.hostConflict := rfl
@[simp] theorem State.setOrigLen_errCode (s : State) (v : Nat) :
    (s.setOrigLen v).errCode = s.errCode := rfl
@[simp] theorem State.setOrigLen_errDetail (s : State) (v : Nat) :
    (s.setOrigLen v).errDetail = s.errDetail := rfl
@[simp] theorem State.setOrigLen_lastOp (s : State) (v : Nat) :
    (s.setOrigLen v).lastOp = s.lastOp := rfl
@[simp] theorem State.setOrigLen_doneIE (s : State) (v : Nat) :
    (s.setOrigLen v).doneIE = s.doneIE := rfl
@[simp] theorem State.setOrigLen_srcAddr (s : State) (v : Nat) :
    (s.setOrigLen v).srcAddr = s.srcAddr := rfl
@[simp] theorem State.setOrigLen_srcLen (s : State) (v : Nat) :
    (s.setOrigLen v).srcLen = s.srcLen := rfl
@[simp] theorem State.setOrigLen_dstAddr (s : State) (v : Nat) :
    (s.setOrigLen v).dstAddr = s.dstAddr := rfl
@[simp] theorem State.setOrigLen_dstCap (s : State) (v : Nat) :
    (s.setOrigLen v).dstCap = s.dstCap := rfl
@[simp] theorem State.setOrigLen_maxRank (s : State) (v : Nat) :
    (s.setOrigLen v).maxRank = s.maxRank := rfl
@[simp] theorem State.setOrigLen_epsLo (s : State) (v : Nat) :
    (s.setOrigLen v).epsLo = s.epsLo := rfl
@[simp] theorem State.setOrigLen_epsHi (s : State) (v : Nat) :
    (s.setOrigLen v).epsHi = s.epsHi := rfl
@[simp] theorem State.setOrigLen_origLenLo (s : State) (v : Nat) :
    (s.setOrigLen v).origLenLo = BitVec.ofNat 32 v := rfl
@[simp] theorem State.setOrigLen_origLenHi (s : State) (v : Nat) :
    (s.setOrigLen v).origLenHi = BitVec.ofNat 32 (v / 2 ^ 32) := rfl
@[simp] theorem State.setOrigLen_resultLen (s : State) (v : Nat) :
    (s.setOrigLen v).resultLen = s.resultLen := rfl
@[simp] theorem State.setOrigLen_consumed (s : State) (v : Nat) :
    (s.setOrigLen v).consumed = s.consumed := rfl
@[simp] theorem State.setOrigLen_aux0 (s : State) (v : Nat) :
    (s.setOrigLen v).aux0 = s.aux0 := rfl
@[simp] theorem State.setOrigLen_aux1 (s : State) (v : Nat) :
    (s.setOrigLen v).aux1 = s.aux1 := rfl
@[simp] theorem State.setOrigLen_tsel (s : State) (v : Nat) :
    (s.setOrigLen v).tsel = s.tsel := rfl
@[simp] theorem State.setOrigLen_freq (s : State) (v : Nat) :
    (s.setOrigLen v).freq = s.freq := rfl
@[simp] theorem State.setOrigLen_len (s : State) (v : Nat) :
    (s.setOrigLen v).len = s.len := rfl
@[simp] theorem State.setOrigLen_code (s : State) (v : Nat) :
    (s.setOrigLen v).code = s.code := rfl
@[simp] theorem State.setOrigLen_buf (s : State) (v : Nat) :
    (s.setOrigLen v).buf = s.buf := rfl
@[simp] theorem State.setOrigLen_engine (s : State) (v : Nat) :
    (s.setOrigLen v).engine = s.engine := rfl
@[simp] theorem State.setOrigLen_bufSeed (s : State) (v : Nat) :
    (s.setOrigLen v).bufSeed = s.bufSeed := rfl
@[simp] theorem State.setOrigLen_draws (s : State) (v : Nat) :
    (s.setOrigLen v).draws = s.draws := rfl
@[simp] theorem State.setOrigLen_agenda (s : State) (v : Nat) :
    (s.setOrigLen v).agenda = s.agenda := rfl
@[simp] theorem State.setOrigLen_reply (s : State) (v : Nat) :
    (s.setOrigLen v).reply = s.reply := rfl

/-! ## `State.writeStatus` -/

@[simp] theorem State.writeStatus_cmd (s : State) (v : Word) :
    (s.writeStatus v).cmd = s.cmd := rfl
@[simp] theorem State.writeStatus_done (s : State) (v : Word) :
    (s.writeStatus v).done = (s.done && !v.getLsbD 1) := rfl
@[simp] theorem State.writeStatus_tableValid (s : State) (v : Word) :
    (s.writeStatus v).tableValid = s.tableValid := rfl
@[simp] theorem State.writeStatus_overrun (s : State) (v : Word) :
    (s.writeStatus v).overrun = (s.overrun && !v.getLsbD 5) := rfl
@[simp] theorem State.writeStatus_hostConflict (s : State) (v : Word) :
    (s.writeStatus v).hostConflict = (s.hostConflict && !v.getLsbD 6) := rfl
@[simp] theorem State.writeStatus_errCode (s : State) (v : Word) :
    (s.writeStatus v).errCode = s.errCode := rfl
@[simp] theorem State.writeStatus_errDetail (s : State) (v : Word) :
    (s.writeStatus v).errDetail = s.errDetail := rfl
@[simp] theorem State.writeStatus_lastOp (s : State) (v : Word) :
    (s.writeStatus v).lastOp = s.lastOp := rfl
@[simp] theorem State.writeStatus_doneIE (s : State) (v : Word) :
    (s.writeStatus v).doneIE = s.doneIE := rfl
@[simp] theorem State.writeStatus_srcAddr (s : State) (v : Word) :
    (s.writeStatus v).srcAddr = s.srcAddr := rfl
@[simp] theorem State.writeStatus_srcLen (s : State) (v : Word) :
    (s.writeStatus v).srcLen = s.srcLen := rfl
@[simp] theorem State.writeStatus_dstAddr (s : State) (v : Word) :
    (s.writeStatus v).dstAddr = s.dstAddr := rfl
@[simp] theorem State.writeStatus_dstCap (s : State) (v : Word) :
    (s.writeStatus v).dstCap = s.dstCap := rfl
@[simp] theorem State.writeStatus_maxRank (s : State) (v : Word) :
    (s.writeStatus v).maxRank = s.maxRank := rfl
@[simp] theorem State.writeStatus_epsLo (s : State) (v : Word) :
    (s.writeStatus v).epsLo = s.epsLo := rfl
@[simp] theorem State.writeStatus_epsHi (s : State) (v : Word) :
    (s.writeStatus v).epsHi = s.epsHi := rfl
@[simp] theorem State.writeStatus_origLenLo (s : State) (v : Word) :
    (s.writeStatus v).origLenLo = s.origLenLo := rfl
@[simp] theorem State.writeStatus_origLenHi (s : State) (v : Word) :
    (s.writeStatus v).origLenHi = s.origLenHi := rfl
@[simp] theorem State.writeStatus_resultLen (s : State) (v : Word) :
    (s.writeStatus v).resultLen = s.resultLen := rfl
@[simp] theorem State.writeStatus_consumed (s : State) (v : Word) :
    (s.writeStatus v).consumed = s.consumed := rfl
@[simp] theorem State.writeStatus_aux0 (s : State) (v : Word) :
    (s.writeStatus v).aux0 = s.aux0 := rfl
@[simp] theorem State.writeStatus_aux1 (s : State) (v : Word) :
    (s.writeStatus v).aux1 = s.aux1 := rfl
@[simp] theorem State.writeStatus_tsel (s : State) (v : Word) :
    (s.writeStatus v).tsel = s.tsel := rfl
@[simp] theorem State.writeStatus_freq (s : State) (v : Word) :
    (s.writeStatus v).freq = s.freq := rfl
@[simp] theorem State.writeStatus_len (s : State) (v : Word) :
    (s.writeStatus v).len = s.len := rfl
@[simp] theorem State.writeStatus_code (s : State) (v : Word) :
    (s.writeStatus v).code = s.code := rfl
@[simp] theorem State.writeStatus_buf (s : State) (v : Word) :
    (s.writeStatus v).buf = s.buf := rfl
@[simp] theorem State.writeStatus_engine (s : State) (v : Word) :
    (s.writeStatus v).engine = s.engine := rfl
@[simp] theorem State.writeStatus_bufSeed (s : State) (v : Word) :
    (s.writeStatus v).bufSeed = s.bufSeed := rfl
@[simp] theorem State.writeStatus_draws (s : State) (v : Word) :
    (s.writeStatus v).draws = s.draws := rfl
@[simp] theorem State.writeStatus_agenda (s : State) (v : Word) :
    (s.writeStatus v).agenda = s.agenda := rfl
@[simp] theorem State.writeStatus_reply (s : State) (v : Word) :
    (s.writeStatus v).reply = s.reply := rfl

/-! ## `State.setConflict` -/

@[simp] theorem State.setConflict_cmd (s : State) :
    (s.setConflict).cmd = s.cmd := rfl
@[simp] theorem State.setConflict_done (s : State) :
    (s.setConflict).done = s.done := rfl
@[simp] theorem State.setConflict_tableValid (s : State) :
    (s.setConflict).tableValid = s.tableValid := rfl
@[simp] theorem State.setConflict_overrun (s : State) :
    (s.setConflict).overrun = s.overrun := rfl
@[simp] theorem State.setConflict_hostConflict (s : State) :
    (s.setConflict).hostConflict = true := rfl
@[simp] theorem State.setConflict_errCode (s : State) :
    (s.setConflict).errCode = s.errCode := rfl
@[simp] theorem State.setConflict_errDetail (s : State) :
    (s.setConflict).errDetail = s.errDetail := rfl
@[simp] theorem State.setConflict_lastOp (s : State) :
    (s.setConflict).lastOp = s.lastOp := rfl
@[simp] theorem State.setConflict_doneIE (s : State) :
    (s.setConflict).doneIE = s.doneIE := rfl
@[simp] theorem State.setConflict_srcAddr (s : State) :
    (s.setConflict).srcAddr = s.srcAddr := rfl
@[simp] theorem State.setConflict_srcLen (s : State) :
    (s.setConflict).srcLen = s.srcLen := rfl
@[simp] theorem State.setConflict_dstAddr (s : State) :
    (s.setConflict).dstAddr = s.dstAddr := rfl
@[simp] theorem State.setConflict_dstCap (s : State) :
    (s.setConflict).dstCap = s.dstCap := rfl
@[simp] theorem State.setConflict_maxRank (s : State) :
    (s.setConflict).maxRank = s.maxRank := rfl
@[simp] theorem State.setConflict_epsLo (s : State) :
    (s.setConflict).epsLo = s.epsLo := rfl
@[simp] theorem State.setConflict_epsHi (s : State) :
    (s.setConflict).epsHi = s.epsHi := rfl
@[simp] theorem State.setConflict_origLenLo (s : State) :
    (s.setConflict).origLenLo = s.origLenLo := rfl
@[simp] theorem State.setConflict_origLenHi (s : State) :
    (s.setConflict).origLenHi = s.origLenHi := rfl
@[simp] theorem State.setConflict_resultLen (s : State) :
    (s.setConflict).resultLen = s.resultLen := rfl
@[simp] theorem State.setConflict_consumed (s : State) :
    (s.setConflict).consumed = s.consumed := rfl
@[simp] theorem State.setConflict_aux0 (s : State) :
    (s.setConflict).aux0 = s.aux0 := rfl
@[simp] theorem State.setConflict_aux1 (s : State) :
    (s.setConflict).aux1 = s.aux1 := rfl
@[simp] theorem State.setConflict_tsel (s : State) :
    (s.setConflict).tsel = s.tsel := rfl
@[simp] theorem State.setConflict_freq (s : State) :
    (s.setConflict).freq = s.freq := rfl
@[simp] theorem State.setConflict_len (s : State) :
    (s.setConflict).len = s.len := rfl
@[simp] theorem State.setConflict_code (s : State) :
    (s.setConflict).code = s.code := rfl
@[simp] theorem State.setConflict_buf (s : State) :
    (s.setConflict).buf = s.buf := rfl
@[simp] theorem State.setConflict_engine (s : State) :
    (s.setConflict).engine = s.engine := rfl
@[simp] theorem State.setConflict_bufSeed (s : State) :
    (s.setConflict).bufSeed = s.bufSeed := rfl
@[simp] theorem State.setConflict_draws (s : State) :
    (s.setConflict).draws = s.draws := rfl
@[simp] theorem State.setConflict_agenda (s : State) :
    (s.setConflict).agenda = s.agenda := rfl
@[simp] theorem State.setConflict_reply (s : State) :
    (s.setConflict).reply = s.reply := rfl

/-! ## `State.setOverrun` -/

@[simp] theorem State.setOverrun_cmd (s : State) :
    (s.setOverrun).cmd = s.cmd := rfl
@[simp] theorem State.setOverrun_done (s : State) :
    (s.setOverrun).done = s.done := rfl
@[simp] theorem State.setOverrun_tableValid (s : State) :
    (s.setOverrun).tableValid = s.tableValid := rfl
@[simp] theorem State.setOverrun_overrun (s : State) :
    (s.setOverrun).overrun = true := rfl
@[simp] theorem State.setOverrun_hostConflict (s : State) :
    (s.setOverrun).hostConflict = s.hostConflict := rfl
@[simp] theorem State.setOverrun_errCode (s : State) :
    (s.setOverrun).errCode = s.errCode := rfl
@[simp] theorem State.setOverrun_errDetail (s : State) :
    (s.setOverrun).errDetail = s.errDetail := rfl
@[simp] theorem State.setOverrun_lastOp (s : State) :
    (s.setOverrun).lastOp = s.lastOp := rfl
@[simp] theorem State.setOverrun_doneIE (s : State) :
    (s.setOverrun).doneIE = s.doneIE := rfl
@[simp] theorem State.setOverrun_srcAddr (s : State) :
    (s.setOverrun).srcAddr = s.srcAddr := rfl
@[simp] theorem State.setOverrun_srcLen (s : State) :
    (s.setOverrun).srcLen = s.srcLen := rfl
@[simp] theorem State.setOverrun_dstAddr (s : State) :
    (s.setOverrun).dstAddr = s.dstAddr := rfl
@[simp] theorem State.setOverrun_dstCap (s : State) :
    (s.setOverrun).dstCap = s.dstCap := rfl
@[simp] theorem State.setOverrun_maxRank (s : State) :
    (s.setOverrun).maxRank = s.maxRank := rfl
@[simp] theorem State.setOverrun_epsLo (s : State) :
    (s.setOverrun).epsLo = s.epsLo := rfl
@[simp] theorem State.setOverrun_epsHi (s : State) :
    (s.setOverrun).epsHi = s.epsHi := rfl
@[simp] theorem State.setOverrun_origLenLo (s : State) :
    (s.setOverrun).origLenLo = s.origLenLo := rfl
@[simp] theorem State.setOverrun_origLenHi (s : State) :
    (s.setOverrun).origLenHi = s.origLenHi := rfl
@[simp] theorem State.setOverrun_resultLen (s : State) :
    (s.setOverrun).resultLen = s.resultLen := rfl
@[simp] theorem State.setOverrun_consumed (s : State) :
    (s.setOverrun).consumed = s.consumed := rfl
@[simp] theorem State.setOverrun_aux0 (s : State) :
    (s.setOverrun).aux0 = s.aux0 := rfl
@[simp] theorem State.setOverrun_aux1 (s : State) :
    (s.setOverrun).aux1 = s.aux1 := rfl
@[simp] theorem State.setOverrun_tsel (s : State) :
    (s.setOverrun).tsel = s.tsel := rfl
@[simp] theorem State.setOverrun_freq (s : State) :
    (s.setOverrun).freq = s.freq := rfl
@[simp] theorem State.setOverrun_len (s : State) :
    (s.setOverrun).len = s.len := rfl
@[simp] theorem State.setOverrun_code (s : State) :
    (s.setOverrun).code = s.code := rfl
@[simp] theorem State.setOverrun_buf (s : State) :
    (s.setOverrun).buf = s.buf := rfl
@[simp] theorem State.setOverrun_engine (s : State) :
    (s.setOverrun).engine = s.engine := rfl
@[simp] theorem State.setOverrun_bufSeed (s : State) :
    (s.setOverrun).bufSeed = s.bufSeed := rfl
@[simp] theorem State.setOverrun_draws (s : State) :
    (s.setOverrun).draws = s.draws := rfl
@[simp] theorem State.setOverrun_agenda (s : State) :
    (s.setOverrun).agenda = s.agenda := rfl
@[simp] theorem State.setOverrun_reply (s : State) :
    (s.setOverrun).reply = s.reply := rfl

/-! ## `State.answer` -/

@[simp] theorem State.answer_cmd (s : State) (v : BitVec 64) :
    (s.answer v).cmd = s.cmd := rfl
@[simp] theorem State.answer_done (s : State) (v : BitVec 64) :
    (s.answer v).done = s.done := rfl
@[simp] theorem State.answer_tableValid (s : State) (v : BitVec 64) :
    (s.answer v).tableValid = s.tableValid := rfl
@[simp] theorem State.answer_overrun (s : State) (v : BitVec 64) :
    (s.answer v).overrun = s.overrun := rfl
@[simp] theorem State.answer_hostConflict (s : State) (v : BitVec 64) :
    (s.answer v).hostConflict = s.hostConflict := rfl
@[simp] theorem State.answer_errCode (s : State) (v : BitVec 64) :
    (s.answer v).errCode = s.errCode := rfl
@[simp] theorem State.answer_errDetail (s : State) (v : BitVec 64) :
    (s.answer v).errDetail = s.errDetail := rfl
@[simp] theorem State.answer_lastOp (s : State) (v : BitVec 64) :
    (s.answer v).lastOp = s.lastOp := rfl
@[simp] theorem State.answer_doneIE (s : State) (v : BitVec 64) :
    (s.answer v).doneIE = s.doneIE := rfl
@[simp] theorem State.answer_srcAddr (s : State) (v : BitVec 64) :
    (s.answer v).srcAddr = s.srcAddr := rfl
@[simp] theorem State.answer_srcLen (s : State) (v : BitVec 64) :
    (s.answer v).srcLen = s.srcLen := rfl
@[simp] theorem State.answer_dstAddr (s : State) (v : BitVec 64) :
    (s.answer v).dstAddr = s.dstAddr := rfl
@[simp] theorem State.answer_dstCap (s : State) (v : BitVec 64) :
    (s.answer v).dstCap = s.dstCap := rfl
@[simp] theorem State.answer_maxRank (s : State) (v : BitVec 64) :
    (s.answer v).maxRank = s.maxRank := rfl
@[simp] theorem State.answer_epsLo (s : State) (v : BitVec 64) :
    (s.answer v).epsLo = s.epsLo := rfl
@[simp] theorem State.answer_epsHi (s : State) (v : BitVec 64) :
    (s.answer v).epsHi = s.epsHi := rfl
@[simp] theorem State.answer_origLenLo (s : State) (v : BitVec 64) :
    (s.answer v).origLenLo = s.origLenLo := rfl
@[simp] theorem State.answer_origLenHi (s : State) (v : BitVec 64) :
    (s.answer v).origLenHi = s.origLenHi := rfl
@[simp] theorem State.answer_resultLen (s : State) (v : BitVec 64) :
    (s.answer v).resultLen = s.resultLen := rfl
@[simp] theorem State.answer_consumed (s : State) (v : BitVec 64) :
    (s.answer v).consumed = s.consumed := rfl
@[simp] theorem State.answer_aux0 (s : State) (v : BitVec 64) :
    (s.answer v).aux0 = s.aux0 := rfl
@[simp] theorem State.answer_aux1 (s : State) (v : BitVec 64) :
    (s.answer v).aux1 = s.aux1 := rfl
@[simp] theorem State.answer_tsel (s : State) (v : BitVec 64) :
    (s.answer v).tsel = s.tsel := rfl
@[simp] theorem State.answer_freq (s : State) (v : BitVec 64) :
    (s.answer v).freq = s.freq := rfl
@[simp] theorem State.answer_len (s : State) (v : BitVec 64) :
    (s.answer v).len = s.len := rfl
@[simp] theorem State.answer_code (s : State) (v : BitVec 64) :
    (s.answer v).code = s.code := rfl
@[simp] theorem State.answer_buf (s : State) (v : BitVec 64) :
    (s.answer v).buf = s.buf := rfl
@[simp] theorem State.answer_engine (s : State) (v : BitVec 64) :
    (s.answer v).engine = s.engine := rfl
@[simp] theorem State.answer_bufSeed (s : State) (v : BitVec 64) :
    (s.answer v).bufSeed = s.bufSeed := rfl
@[simp] theorem State.answer_draws (s : State) (v : BitVec 64) :
    (s.answer v).draws = s.draws := rfl
@[simp] theorem State.answer_agenda (s : State) (v : BitVec 64) :
    (s.answer v).agenda = s.agenda := rfl
@[simp] theorem State.answer_reply (s : State) (v : BitVec 64) :
    (s.answer v).reply = some v := rfl

end Sys2Proof.Machine
end

