-- ==== Sys2Proof/Laws/Ops.lean ====
section
/-! SUPPORT. What each shared operation does, said once: the parameters' bounds, byte order, tables,
BUF, the checks and the completion of a command. -/

namespace Sys2Proof.Machine

/-! ## Parameters (00_scope.md R6) -/

theorem bufBytes_ge : 4096 ≤ Config.bufBytes :=
  Nat.pow_le_pow_right (n := 2) (by decide) (Nat.le_add_right 12 _)

theorem bufBytes_le : Config.bufBytes ≤ 2 ^ 31 :=
  Nat.pow_le_pow_right (n := 2) (by decide)
    (by have := Config.bufSizeChoice.isLt; omega)

theorem workElems_ge : 65536 ≤ Config.workElems := Nat.le_add_right _ _

/-! ## Byte order -/

@[simp] theorem leBytes_length (n v : Nat) : (leBytes n v).length = n := by
  induction n generalizing v with
  | zero => rfl
  | succ n ih => simp only [leBytes, List.length_cons, ih]

theorem leNat_leBytes (n v : Nat) (h : v < 256 ^ n) : leNat (leBytes n v) = v := by
  induction n generalizing v with
  | zero => simp only [Nat.pow_zero, Nat.lt_one_iff] at h; simp only [leBytes, leNat, h]
  | succ n ih =>
    have h' : v / 256 < 256 ^ n := by
      rw [Nat.div_lt_iff_lt_mul (by decide)]; rwa [Nat.pow_succ] at h
    have hb : (BitVec.ofNat 8 (v % 256)).toNat = v % 256 := by
      rw [BitVec.toNat_ofNat]; exact Nat.mod_eq_of_lt (Nat.mod_lt v (by decide))
    rw [leBytes, leNat, ih _ h', hb]
    omega

theorem leNat_lt (bs : List Byte) : leNat bs < 256 ^ bs.length := by
  induction bs with
  | nil => decide
  | cons b bs ih =>
    have hb : b.toNat < 256 := b.isLt
    rw [leNat, List.length_cons, Nat.pow_succ]
    omega

theorem leBytes_leNat (bs : List Byte) : leBytes bs.length (leNat bs) = bs := by
  induction bs with
  | nil => rfl
  | cons b bs ih =>
    have hb : b.toNat < 256 := b.isLt
    have h1 : (b.toNat + 256 * leNat bs) % 256 = b.toNat := by omega
    have h2 : (b.toNat + 256 * leNat bs) / 256 = leNat bs := by omega
    rw [List.length_cons, leNat, leBytes, h1, h2, ih, BitVec.ofNat_toNat, BitVec.setWidth_eq]

/-! ## Tables -/

@[simp] theorem Table.entry_tabulate {α : Type} (f : Byte → α) (s : Byte) :
    (Table.tabulate f).entry s = f s := by
  simp only [Table.entry, Table.tabulate, Vector.getElem_mk, List.getElem_toArray,
    List.getElem_map, List.getElem_range, BitVec.ofNat_toNat, BitVec.setWidth_eq]

theorem Table.ext_entry {α : Type} {t u : Table α} (h : ∀ s, t.entry s = u.entry s) : t = u := by
  apply Vector.ext
  intro i hi
  have hs : (BitVec.ofNat 8 i).toNat = i := by
    rw [BitVec.toNat_ofNat]; exact Nat.mod_eq_of_lt hi
  have := h (BitVec.ofNat 8 i)
  simpa only [Table.entry, hs] using this

@[simp] theorem symbols_length : symbols.length = 256 := by
  simp only [symbols, List.length_map, List.length_range]

theorem mem_symbols (s : Byte) : s ∈ symbols :=
  List.mem_map.2 ⟨s.toNat, List.mem_range.2 s.isLt, by
    rw [BitVec.ofNat_toNat, BitVec.setWidth_eq]⟩

theorem symbols_getElem (i : Nat) (h : i < symbols.length) : symbols[i] = BitVec.ofNat 8 i := by
  simp only [symbols, List.getElem_map, List.getElem_range]

/-! ## BUF -/

theorem Memory.lookup_append (m n : Memory) (x : Nat) :
    Memory.lookup (m ++ n) x = (Memory.lookup m x).or (Memory.lookup n x) := by
  induction m with
  | nil => simp only [List.nil_append, Memory.lookup, Option.none_or]
  | cons c m ih =>
    obtain ⟨k, v⟩ := c
    simp only [List.cons_append, Memory.lookup]
    split
    · simp only [Option.some_or]
    · exact ih

theorem Memory.lookup_filter (m : Memory) (p : Nat → Bool) (x : Nat) :
    Memory.lookup (m.filter fun c => p c.1) x = if p x then Memory.lookup m x else none := by
  induction m with
  | nil => simp only [List.filter_nil, Memory.lookup, ite_self]
  | cons c m ih =>
    obtain ⟨k, v⟩ := c
    by_cases hk : k = x
    · subst hk
      by_cases hp : p k = true
      · rw [List.filter_cons_of_pos (by simpa using hp)]
        simp only [Memory.lookup, hp, if_true]
      · rw [List.filter_cons_of_neg (by simpa using hp), ih]
        simp only [hp, Bool.false_eq_true, if_false]
    · by_cases hp : p k = true
      · rw [List.filter_cons_of_pos (by simpa using hp)]
        simp only [Memory.lookup, hk, if_false, ih]
      · rw [List.filter_cons_of_neg (by simpa using hp), ih]
        simp only [Memory.lookup, hk, if_false]

theorem Memory.lookup_cellsFrom (a : Nat) (bs : List Byte) (x : Nat) :
    Memory.lookup (cellsFrom a bs) x = if a ≤ x then bs[x - a]? else none := by
  induction bs generalizing a with
  | nil => simp only [cellsFrom, Memory.lookup, List.getElem?_nil, ite_self]
  | cons b bs ih =>
    simp only [cellsFrom, Memory.lookup, ih]
    rcases Nat.lt_trichotomy a x with h | h | h
    · have h1 : x - a = (x - (a + 1)) + 1 := by omega
      rw [if_neg (by omega), if_pos (by omega), if_pos (by omega), h1, List.getElem?_cons_succ]
    · subst h
      simp only [if_true, Nat.le_refl, Nat.sub_self, List.getElem?_cons_zero]
    · rw [if_neg (by omega), if_neg (by omega), if_neg (by omega)]

/-- What a store does to what every address lists. -/
theorem Memory.lookup_write (m : Memory) (a : Nat) (bs : List Byte) (x : Nat) :
    Memory.lookup (Memory.write m a bs) x =
      if a ≤ x ∧ x < a + bs.length then bs[x - a]? else Memory.lookup m x := by
  rw [Memory.write, Memory.lookup_append, Memory.lookup_append,
    Memory.lookup_filter m (fun k => decide (k < a)),
    Memory.lookup_filter m (fun k => decide (a + bs.length ≤ k)), Memory.lookup_cellsFrom]
  by_cases h1 : x < a
  · have h2 : ¬ a ≤ x := by omega
    have h3 : ¬ a + bs.length ≤ x := by omega
    simp only [h1, h2, h3, decide_true, decide_false, if_true, Bool.false_eq_true, if_false,
      Option.or_none, false_and]
  · have h2 : a ≤ x := by omega
    by_cases h3 : x < a + bs.length
    · have h4 : ¬ a + bs.length ≤ x := by omega
      simp only [h1, h2, h3, h4, decide_false, Bool.false_eq_true, if_false, if_true,
        Option.none_or, Option.or_none, and_self]
    · have h4 : a + bs.length ≤ x := by omega
      have h5 : bs[x - a]? = none := List.getElem?_eq_none (by omega)
      simp only [h1, h2, h3, h4, h5, decide_true, decide_false, Bool.false_eq_true, if_false,
        if_true, Option.none_or, and_false]

theorem cellsFrom_bounds {a : Nat} {bs : List Byte} {c : Host.Cell} (h : c ∈ cellsFrom a bs) :
    a ≤ c.1 ∧ c.1 < a + bs.length := by
  induction bs generalizing a with
  | nil => cases h
  | cons b bs ih =>
    rw [cellsFrom, List.mem_cons] at h
    rw [List.length_cons]
    rcases h with rfl | h
    · exact ⟨Nat.le_refl _, by omega⟩
    · have := ih h
      omega

theorem cellsFrom_wf (a : Nat) (bs : List Byte) : Memory.wf (cellsFrom a bs) := by
  induction bs generalizing a with
  | nil => exact List.Pairwise.nil
  | cons b bs ih =>
    refine List.Pairwise.cons ?_ (ih (a + 1))
    intro x hx
    obtain ⟨c, hc, rfl⟩ := List.mem_map.1 hx
    have := cellsFrom_bounds hc
    omega

theorem Memory.filter_wf {m : Memory} (h : Memory.wf m) (p : Host.Cell → Bool) :
    Memory.wf (m.filter p) :=
  List.Pairwise.sublist (List.filter_sublist.map Prod.fst) h

/-- A store keeps the canonical form. -/
theorem Memory.write_wf {m : Memory} (h : Memory.wf m) (a : Nat) (bs : List Byte) :
    Memory.wf (Memory.write m a bs) := by
  have hlow := Memory.filter_wf h (fun c => c.1 < a)
  have hhigh := Memory.filter_wf h (fun c => a + bs.length ≤ c.1)
  have hmid := cellsFrom_wf a bs
  rw [Memory.write, Memory.wf, List.map_append, List.map_append, List.pairwise_append,
    List.pairwise_append]
  refine ⟨⟨hlow, hmid, ?_⟩, hhigh, ?_⟩
  · intro x hx y hy
    obtain ⟨c, hc, rfl⟩ := List.mem_map.1 hx
    obtain ⟨d, hd, rfl⟩ := List.mem_map.1 hy
    have h1 : c.1 < a := by simpa using (List.mem_filter.1 hc).2
    have h2 := cellsFrom_bounds hd
    omega
  · intro x hx y hy
    obtain ⟨d, hd, rfl⟩ := List.mem_map.1 hy
    have h2 : a + bs.length ≤ d.1 := by simpa using (List.mem_filter.1 hd).2
    rcases List.mem_append.1 hx with hx | hx
    · obtain ⟨c, hc, rfl⟩ := List.mem_map.1 hx
      have h1 : c.1 < a := by simpa using (List.mem_filter.1 hc).2
      omega
    · obtain ⟨c, hc, rfl⟩ := List.mem_map.1 hx
      have h1 := cellsFrom_bounds hc
      omega

/-- The memory after reset is in canonical form. -/
theorem reset_buf_wf : Memory.wf State.reset.buf := List.Pairwise.nil

/-- A store inside BUF lists no address outside it. -/
theorem Memory.write_inside {m : Memory} {a n : Nat} {bs : List Byte}
    (h : ∀ c ∈ m, c.1 < n) (hb : a + bs.length ≤ n) : ∀ c ∈ Memory.write m a bs, c.1 < n := by
  intro c hc
  rw [Memory.write, List.mem_append, List.mem_append] at hc
  rcases hc with (hc | hc) | hc
  · exact h c (List.mem_filter.1 hc).1
  · have := cellsFrom_bounds hc
    omega
  · exact h c (List.mem_filter.1 hc).1

/-- Reading depends only on BUF and the reset draw. -/
theorem readByte_congr {s t : State} (hb : t.buf = s.buf) (hs : t.bufSeed = s.bufSeed) (a : Nat) :
    t.readByte a = s.readByte a := by
  rw [State.readByte, State.readByte, hb, hs]

theorem readBytes_congr {s t : State} (hb : t.buf = s.buf) (hs : t.bufSeed = s.bufSeed)
    (a n : Nat) : t.readBytes a n = s.readBytes a n :=
  List.map_congr_left fun i _ => readByte_congr hb hs (a + i)

@[simp] theorem readBytes_length (s : State) (a n : Nat) : (s.readBytes a n).length = n := by
  simp only [State.readBytes, List.length_map, List.length_range]

@[simp] theorem srcBytes_length (s : State) : s.srcBytes.length = s.srcLen.toNat :=
  readBytes_length _ _ _

theorem readByte_writeBytes_outside (s : State) (a : Nat) (bs : List Byte) (x : Nat)
    (h : x < a ∨ a + bs.length ≤ x) : (s.writeBytes a bs).readByte x = s.readByte x := by
  have h' : ¬ (a ≤ x ∧ x < a + bs.length) := by omega
  rw [State.readByte, State.readByte, State.writeBytes_buf, State.writeBytes_bufSeed,
    Memory.lookup_write, if_neg h']

theorem readByte_writeBytes_inside (s : State) (a : Nat) (bs : List Byte) (i : Nat)
    (h : i < bs.length) : (s.writeBytes a bs).readByte (a + i) = bs[i] := by
  have h' : a ≤ a + i ∧ a + i < a + bs.length := by omega
  rw [State.readByte, State.writeBytes_buf, Memory.lookup_write, if_pos h', Nat.add_sub_cancel_left,
    List.getElem?_eq_getElem h, Option.getD_some]

/-- A read after a write to the same place gives the bytes written. -/
theorem memoryHolds_writeBytes (s : State) (a : Nat) (bs : List Byte) :
    MemoryHolds (s.writeBytes a bs) a bs := by
  apply List.ext_getElem
  · exact readBytes_length _ _ _
  · intro i h1 h2
    simp only [State.readBytes, List.getElem_map, List.getElem_range]
    exact readByte_writeBytes_inside s a bs i h2

/-- A write leaves every other place alone. -/
theorem memoryKeptOutside_writeBytes (s : State) (a : Nat) (bs : List Byte) :
    MemoryKeptOutside s (s.writeBytes a bs) a bs.length :=
  fun x h => readByte_writeBytes_outside s a bs x h

@[simp] theorem drawBytes_length (d n : Nat) : (drawBytes d n).length = n := by
  simp only [drawBytes, List.length_map, List.length_range]

/-- An execution error touches no byte outside the destination range (60_exceptions.md R253). -/
theorem memoryKeptOutside_scrambleDst (s : State) :
    MemoryKeptOutside s s.scrambleDst s.dstAddr.toNat s.dstCap.toNat := by
  intro x h
  have := readByte_writeBytes_outside s s.dstAddr.toNat (drawBytes s.draws s.dstCap.toNat) x
    (by simpa only [drawBytes_length] using h)
  rw [← this]
  exact readByte_congr (by simp only [State.scrambleDst_buf]) rfl x

/-! ## Checks and completion -/

/-- What a command can end in: the first failing check with nothing changed, or its body. -/
theorem runCommand_cases (s : State) (checks : List Check) (body : State → Ended) :
    (∃ e, firstFailing checks = some e ∧ runCommand s checks body = .next (s.completeFailure e)) ∨
      (firstFailing checks = none ∧ runCommand s checks body = .next (body s).complete) := by
  unfold runCommand
  cases h : firstFailing checks with
  | some e => exact .inl ⟨e, rfl, rfl⟩
  | none => exact .inr ⟨rfl, rfl⟩

theorem runCommand_passed {s : State} {checks : List Check} (body : State → Ended)
    (h : firstFailing checks = none) : runCommand s checks body = .next (body s).complete := by
  rw [runCommand, h]

theorem runCommand_failed {s : State} {checks : List Check} {e : CmdError} (body : State → Ended)
    (h : firstFailing checks = some e) :
    runCommand s checks body = .next (s.completeFailure e) := by
  rw [runCommand, h]; rfl

@[simp] theorem firstFailing_nil : firstFailing [] = none := rfl

@[simp] theorem firstFailing_cons (b : Bool) (e : CmdError) (cs : List Check) :
    firstFailing ((b, e) :: cs) = if b then some e else firstFailing cs := rfl

theorem firstFailing_append (cs ds : List Check) :
    firstFailing (cs ++ ds) = (firstFailing cs).or (firstFailing ds) := by
  induction cs with
  | nil => rfl
  | cons c cs ih =>
    obtain ⟨b, e⟩ := c
    cases b
    · simpa only [List.cons_append, firstFailing_cons, Bool.false_eq_true, if_false] using ih
    · rfl

@[simp] theorem complete_succeed (s : State) (r : Results) :
    (succeed s r).complete = s.completeSuccess r := rfl

@[simp] theorem complete_fail (s : State) (e : CmdError) :
    (fail s e).complete = s.completeFailure e := rfl

theorem srcOutside_eq_false (s : State) : s.srcOutside = false ↔ SrcInside s := by
  simp only [State.srcOutside, SrcInside, decide_eq_false_iff_not, Nat.not_lt]

theorem dstOutside_eq_false (s : State) : s.dstOutside = false ↔ DstInside s := by
  simp only [State.dstOutside, DstInside, decide_eq_false_iff_not, Nat.not_lt]

theorem rangesOverlap_eq_false (s : State) : s.rangesOverlap = false ↔ RangesApart s := by
  simp only [State.rangesOverlap, RangesApart, Bool.and_eq_false_iff, decide_eq_false_iff_not]
  omega

/-- The operand checks pass exactly when the ranges a command uses are legal. -/
theorem operandChecks_pass (i : Instr) (s : State) :
    firstFailing (operandChecks i s) = none ↔
      (usesSrc i = true → SrcInside s) ∧ (usesDst i = true → DstInside s) ∧
        (usesSrc i = true → usesDst i = true → RangesApart s) := by
  rw [← srcOutside_eq_false, ← dstOutside_eq_false, ← rangesOverlap_eq_false]
  simp only [operandChecks, firstFailing_cons, firstFailing_nil]
  cases usesSrc i <;> cases usesDst i <;> cases s.srcOutside <;> cases s.dstOutside <;>
    cases s.rangesOverlap <;> decide

/-- Checks that pass may be dropped. -/
theorem runCommand_append {s : State} {cs : List Check} (ds : List Check) (body : State → Ended)
    (h : firstFailing cs = none) : runCommand s (cs ++ ds) body = runCommand s ds body := by
  rw [runCommand, firstFailing_append, h, Option.none_or, runCommand]

theorem runCommand_operands {s : State} {i : Instr} (body : State → Ended)
    (h : firstFailing (operandChecks i s) = none) :
    runCommand s (operandChecks i s) body = .next (body s).complete :=
  runCommand_passed body h

/-- No padded length up to the least WORK_ELEMS passes it (00_scope.md R6). -/
theorem workElems_lt_eq_false {n : Nat} (h : n ≤ 65536) : decide (Config.workElems < n) = false :=
  decide_eq_false (Nat.not_lt.2 (Nat.le_trans h workElems_ge))

/-- A completion touches no byte of BUF. -/
theorem readByte_completeSuccess (s : State) (r : Results) (a : Nat) :
    (s.completeSuccess r).readByte a = s.readByte a := readByte_congr rfl rfl a

theorem readByte_completeFailure (s : State) (e : CmdError) (a : Nat) :
    (s.completeFailure e).readByte a = s.readByte a := readByte_congr rfl rfl a

/-- What a failing completion leaves (60_exceptions.md R255). -/
theorem failed_completeFailure (s : State) (e : CmdError) : Failed (s.completeFailure e) e :=
  ⟨rfl, rfl, rfl, rfl, rfl, rfl, rfl, rfl⟩

/-- A failing completion with no effect of the command's own changes the completion fields only
(60_exceptions.md R253). -/
theorem onlyCompletion_completeFailure (s : State) (e : CmdError) :
    OnlyCompletion s (s.completeFailure e) :=
  ⟨⟨rfl, rfl, rfl, rfl, rfl, rfl, rfl, rfl, rfl, rfl, rfl, rfl, rfl, rfl, rfl, rfl⟩,
    ⟨rfl, rfl⟩, rfl, ⟨rfl, rfl, rfl⟩, fun _ => rfl, rfl⟩

/-- What a successful completion leaves when its results fit 32 bits (60_exceptions.md R255). -/
theorem succeeded_completeSuccess (s : State) (r : Results)
    (h : r.resultLen < 2 ^ 32 ∧ r.consumed < 2 ^ 32 ∧ r.aux0 < 2 ^ 32 ∧ r.aux1 < 2 ^ 32) :
    Succeeded (s.completeSuccess r) r :=
  ⟨rfl, rfl, rfl, rfl, BitVec.toNat_ofNat _ _ ▸ Nat.mod_eq_of_lt h.1,
    BitVec.toNat_ofNat _ _ ▸ Nat.mod_eq_of_lt h.2.1,
    BitVec.toNat_ofNat _ _ ▸ Nat.mod_eq_of_lt h.2.2.1,
    BitVec.toNat_ofNat _ _ ▸ Nat.mod_eq_of_lt h.2.2.2⟩

/-- A command that stores `bs` and succeeds changes nothing else but the completion fields. -/
theorem onlyStored_writeDst (s : State) (bs : List Byte) (r : Results) :
    OnlyStored s ((s.writeDst bs).completeSuccess r) bs where
  regs := ⟨rfl, rfl, rfl, rfl, rfl, rfl, rfl, rfl, rfl, rfl, rfl, rfl, rfl, rfl, rfl, rfl⟩
  origLen := ⟨rfl, rfl⟩
  freq := rfl
  codes := ⟨rfl, rfl, rfl⟩
  stored := memoryHolds_writeBytes s s.dstAddr.toNat bs
  memory := memoryKeptOutside_writeBytes s s.dstAddr.toNat bs
  draws := rfl

/-- A command that succeeds with no effect of its own changes the completion fields only. -/
theorem onlyCompletion_completeSuccess (s : State) (r : Results) :
    OnlyCompletion s (s.completeSuccess r) :=
  ⟨⟨rfl, rfl, rfl, rfl, rfl, rfl, rfl, rfl, rfl, rfl, rfl, rfl, rfl, rfl, rfl, rfl⟩,
    ⟨rfl, rfl⟩, rfl, ⟨rfl, rfl, rfl⟩, fun _ => rfl, rfl⟩

end Sys2Proof.Machine
end

