-- ==== Sys2Proof/Laws/Codec.lean ====
section
/-! SUPPORT. Sizes and the basic laws of the byte and bit layouts: amplitudes, matrices, codes and
packed bits; and that a NaN result is a NaN. -/

namespace Sys2Proof.Machine

/-! ## Arithmetic (00_scope.md R10) -/

/-- Every pattern the operations give as a NaN is one, whichever the free value is. -/
theorem F64.isNaN_nan (op : FloatOp) (a b : F64) : F64.isNaN (F64.nan op a b) = true := by
  have key : ∀ (neg : Bool) (f : Nat), 0 < f → f < 2 ^ 52 →
      F64.isNaN (F64.pack neg (F64.infMag + f)) = true := by
    intro neg f h0 h
    simp only [F64.isNaN, F64.expField, F64.fracField, F64.pack, F64.infMag,
      BitVec.extractLsb'_toNat, BitVec.toNat_ofNat, Nat.shiftRight_eq_div_pow, Bool.and_eq_true,
      beq_iff_eq, bne_iff_ne]
    cases neg <;> simp only [Bool.false_eq_true, if_false, if_true] <;> omega
  refine key _ _ ?_ ?_ <;> split <;> omega

/-! ## Amplitudes (41_amplitude.md R140) -/

@[simp] theorem c64Bytes_length (z : C64) : (c64Bytes z).length = 16 := by
  simp only [c64Bytes, List.length_append, leBytes_length]

/-- A stored amplitude reads back, whatever follows it. -/
theorem c64OfBytes_c64Bytes (z : C64) (rest : List Byte) : c64OfBytes (c64Bytes z ++ rest) = z := by
  have hr : (leBytes 8 z.re.toNat).length = 8 := leBytes_length _ _
  have hi : (leBytes 8 z.im.toNat).length = 8 := leBytes_length _ _
  have e1 : (c64Bytes z ++ rest).take 8 = leBytes 8 z.re.toNat := by
    rw [c64Bytes, List.append_assoc, List.take_left' hr]
  have e2 : ((c64Bytes z ++ rest).drop 8).take 8 = leBytes 8 z.im.toNat := by
    rw [c64Bytes, List.append_assoc, List.drop_left' hr, List.take_left' hi]
  have n1 := leNat_leBytes 8 z.re.toNat (Nat.lt_of_lt_of_le z.re.isLt (by decide))
  have n2 := leNat_leBytes 8 z.im.toNat (Nat.lt_of_lt_of_le z.im.isLt (by decide))
  rw [c64OfBytes, e1, e2, n1, n2]
  simp only [BitVec.ofNat_toNat, BitVec.setWidth_eq]

@[simp] theorem c64List_length (n : Nat) (bs : List Byte) : (c64List n bs).length = n := by
  induction n generalizing bs with
  | zero => rfl
  | succ n ih => simp only [c64List, List.length_cons, ih]

/-- Stored entries read back in order, whatever follows them. -/
theorem c64List_flatMap (zs : List C64) (rest : List Byte) :
    c64List zs.length (zs.flatMap c64Bytes ++ rest) = zs := by
  induction zs with
  | nil => rfl
  | cons z zs ih =>
    rw [List.length_cons, c64List, List.flatMap_cons, List.append_assoc, c64OfBytes_c64Bytes,
      List.drop_left' (c64Bytes_length z), ih]

theorem flatMap_c64Bytes_length (zs : List C64) :
    (zs.flatMap c64Bytes).length = 16 * zs.length := by
  induction zs with
  | nil => rfl
  | cons z zs ih =>
    rw [List.flatMap_cons, List.length_append, c64Bytes_length, ih, List.length_cons]
    omega

/-! ## Matrices (42_tensor_train.md R153) -/

theorem cmatmul_entries_length (x y : CMat) :
    (cmatmul x y).entries.length = x.rows * y.cols := by
  simp only [cmatmul, List.length_flatMap, List.length_map, List.length_range, List.map_const',
    List.sum_replicate, smul_eq_mul]

theorem leftTensor_entries_length (m : CMat) (k : Nat) :
    (leftTensor m k).entries.length = m.rows * k := by
  simp only [leftTensor, List.length_flatMap, List.length_map, List.length_range, List.map_const',
    List.sum_replicate, smul_eq_mul]

theorem nextRemainder_length (m : CMat) (k : Nat) : (nextRemainder m k).length = k * m.cols := by
  simp only [nextRemainder, List.length_flatMap, List.length_map, List.length_range,
    List.map_const', List.sum_replicate, smul_eq_mul]

/-! ## Codes and packed bits (43_huffman.md R203 to R206) -/

@[simp] theorem bitsMsb_length (c : BitVec 255) (n : Nat) : (bitsMsb c n).length = n := by
  simp only [bitsMsb, List.length_map, List.length_range]

@[simp] theorem codeString_length (l : Table (BitVec 8)) (c : Table (BitVec 255)) (s : Byte) :
    (codeString l c s).length = (l.entry s).toNat := bitsMsb_length _ _

/-- The bit count of R206 is the length of the bit string. -/
theorem encodedBits_length (l : Table (BitVec 8)) (c : Table (BitVec 255)) (src : List Byte) :
    (encodedBits l c src).length = bitCount l src := by
  simp only [encodedBits, bitCount, List.length_flatMap, codeString_length]

@[simp] theorem packBits_length (w : List Bool) : (packBits w).length = ceilDiv w.length 8 := by
  simp only [packBits, List.length_map, List.length_range]

@[simp] theorem byteBits_length (b : Byte) : (byteBits b).length = 8 := by
  simp only [byteBits, List.length_map, List.length_range]

/-- The readable stream has 8 bits for each byte after the count (R207). -/
theorem payloadBits_length (src : List Byte) : (payloadBits src).length = 8 * (src.length - 8) := by
  simp only [payloadBits, List.length_flatMap, byteBits_length, List.map_const',
    List.sum_replicate, smul_eq_mul, List.length_drop]
  omega

/-- The match step only ever reports NO_CODE or BITS_EXHAUSTED (R208). -/
theorem matchStep_error {book : List (Byte × List Bool)} {w rest : List Bool} {e : ErrDetail}
    (h : matchStep book w rest = .error e) : e = .noCode ∨ e = .bitsExhausted := by
  induction rest generalizing w with
  | nil =>
    unfold matchStep at h
    split at h
    · cases h
    · split at h
      · exact .inr (Except.error.inj h).symm
      · exact .inl (Except.error.inj h).symm
  | cons b rest ih =>
    unfold matchStep at h
    split at h
    · cases h
    · split at h
      · exact ih h
      · exact .inl (Except.error.inj h).symm

/-- Reading `n` symbols gives `n` symbols. -/
theorem decodeSymbols_length {book : List (Byte × List Bool)} {n : Nat} {rest : List Bool}
    {out : List Byte} {after : List Bool} (h : decodeSymbols book n rest = .ok (out, after)) :
    out.length = n := by
  induction n generalizing rest out after with
  | zero =>
    simp only [decodeSymbols, Except.ok.injEq, Prod.mk.injEq] at h
    rw [← h.1]
    rfl
  | succ n ih =>
    simp only [decodeSymbols] at h
    split at h
    · cases h
    · split at h
      · cases h
      · simp only [Except.ok.injEq, Prod.mk.injEq] at h
        rw [← h.1, List.length_cons, ih ‹_›]

end Sys2Proof.Machine
end

