-- ==== Sys2Proof/Laws/PerInstr.lean ====
section
/-! SUPPORT. Statements about every command as syntax, one lemma per constructor. -/

namespace Sys2Proof.Laws

/-- The encoded word of a command has exactly the fields that name it, and these pass both checks of
30_encoding.md R103. -/
def EncodingIsLegal.Statement (i : Instr) : Prop :=
  CmdWord.ofWord (encodeWord i) = CmdWord.ofInstr i ∧ i.wellFormed = true

theorem EncodingIsLegal.nop : EncodingIsLegal.Statement .nop := ⟨rfl, rfl⟩
theorem EncodingIsLegal.ampMap : EncodingIsLegal.Statement .ampMap := ⟨rfl, rfl⟩
theorem EncodingIsLegal.ampUnmap : EncodingIsLegal.Statement .ampUnmap := ⟨rfl, rfl⟩
theorem EncodingIsLegal.decompose : EncodingIsLegal.Statement .decompose := ⟨rfl, rfl⟩
theorem EncodingIsLegal.chainCheck : EncodingIsLegal.Statement .chainCheck := ⟨rfl, rfl⟩
theorem EncodingIsLegal.reconstruct : EncodingIsLegal.Statement .reconstruct := ⟨rfl, rfl⟩
theorem EncodingIsLegal.histClear : EncodingIsLegal.Statement .histClear := ⟨rfl, rfl⟩
theorem EncodingIsLegal.histAccum : EncodingIsLegal.Statement .histAccum := ⟨rfl, rfl⟩
theorem EncodingIsLegal.buildTable : EncodingIsLegal.Statement .buildTable := ⟨rfl, rfl⟩
theorem EncodingIsLegal.tableStore : EncodingIsLegal.Statement .tableStore := ⟨rfl, rfl⟩
theorem EncodingIsLegal.tableLoad : EncodingIsLegal.Statement .tableLoad := ⟨rfl, rfl⟩
theorem EncodingIsLegal.encode : EncodingIsLegal.Statement .encode := ⟨rfl, rfl⟩
theorem EncodingIsLegal.decode : EncodingIsLegal.Statement .decode := ⟨rfl, rfl⟩
theorem EncodingIsLegal.hdrPack : EncodingIsLegal.Statement .hdrPack := ⟨rfl, rfl⟩
theorem EncodingIsLegal.hdrParse : EncodingIsLegal.Statement .hdrParse := ⟨rfl, rfl⟩

end Sys2Proof.Laws
end

