-- ==== Sys2Proof/Laws/Step.lean ====
section
/-! SUPPORT. Everything a step can do, said once, so that an invariant is proved move by move. -/

namespace Sys2Proof.Machine

/-- What an answer of the engine's move can be: nothing when Idle, the completion of an illegal word, or
a command's. -/
theorem engineStep_cases {s t : State} (h : engineStep s = .next t) :
    (s.engine = .idle ∧ t = s) ∨
      (∃ w e, s.engine = .busy w ∧ decodeWord w = .error e ∧
        t = s.completeFailure (illegalError e)) ∨
      (∃ w i, s.engine = .busy w ∧ decodeWord w = .ok i ∧ exec i s = .next t) := by
  unfold engineStep at h
  split at h
  · exact .inl ⟨by assumption, (Host.Outcome.next.inj h).symm⟩
  · unfold completeWord at h
    split at h
    · exact .inr (.inr ⟨_, _, by assumption, by assumption, h⟩)
    · exact .inr (.inl ⟨_, _, by assumption, by assumption, (Host.Outcome.next.inj h).symm⟩)

/-- What a step that answers a next state did: the engine's move with none left on the agenda, or the
first move of the agenda. -/
theorem step_cases {s t : State} (h : step s = .next t) :
    (s.agenda = [] ∧ engineStep s = .next t) ∨
      (∃ x ts, s.agenda = .host x :: ts ∧ t = State.hostTxn { s with agenda := ts } x) ∨
      (∃ ts, s.agenda = .engine :: ts ∧ engineStep { s with agenda := ts } = .next t) ∨
      (∃ ts, s.agenda = .reset :: ts ∧ t = platformReset { s with agenda := ts }) ∨
      (∃ ts, s.agenda = .wait :: ts ∧ t = hostWait { s with agenda := ts }) ∨
      (∃ ts, s.agenda = .check :: ts ∧ t = hostCheck { s with agenda := ts }) := by
  unfold step at h
  split at h
  · exact .inl ⟨by assumption, h⟩
  · rename_i m ts hm
    cases m with
    | host x => exact .inr (.inl ⟨x, ts, hm, (Host.Outcome.next.inj h).symm⟩)
    | engine => exact .inr (.inr (.inl ⟨ts, hm, h⟩))
    | reset => exact .inr (.inr (.inr (.inl ⟨ts, hm, (Host.Outcome.next.inj h).symm⟩)))
    | wait => exact .inr (.inr (.inr (.inr (.inl ⟨ts, hm, (Host.Outcome.next.inj h).symm⟩))))
    | check => exact .inr (.inr (.inr (.inr (.inr ⟨ts, hm, (Host.Outcome.next.inj h).symm⟩))))

/-- What a register read can do (10_state.md R54 to R56; 20_memory.md R75). -/
theorem regRead_cases (s : State) (off : BitVec 8) :
    (∃ v, s.regRead off = s.answer v) ∨ ∃ v, s.regRead off = (s.answer v).useDraw := by
  unfold State.regRead
  split
  · exact .inl ⟨_, rfl⟩
  · unfold State.readReg
    split
    · exact .inr ⟨_, rfl⟩
    · exact .inl ⟨_, rfl⟩

/-- What a register write can do (10_state.md R27, R57, R58; 20_memory.md R75). -/
theorem regWrite_cases (s : State) (off : BitVec 8) (v : Word) :
    s.regWrite off v = s ∨ s.regWrite off v = s.setOverrun ∨ s.regWrite off v = s.setConflict ∨
      s.regWrite off v = s.writeStatus v ∨
      s.regWrite off v = { s with doneIE := v.getLsbD 0 } ∨
      (s.isBusy = false ∧ s.regWrite off v = s.issue v) ∨
      (s.isBusy = false ∧ ∃ r, regIsOperand r = true ∧ s.regWrite off v = s.storeOperand r v) := by
  unfold State.regWrite
  split
  · exact .inl rfl
  · rename_i r _
    unfold State.writeReg
    split
    · split
      · exact .inr (.inl rfl)
      · exact .inr (.inr (.inr (.inr (.inr (.inl ⟨by simpa using ‹¬ s.isBusy = true›, rfl⟩)))))
    · exact .inr (.inr (.inr (.inl rfl)))
    · exact .inr (.inr (.inr (.inr (.inl rfl))))
    · split
      · split
        · exact .inr (.inr (.inl rfl))
        · exact .inr (.inr (.inr (.inr (.inr (.inr
            ⟨by simpa using ‹¬ s.isBusy = true›, r, by assumption, rfl⟩)))))
      · exact .inl rfl

/-- What a buffer write can do (20_memory.md R76, R77). -/
theorem bufWrite_cases (s : State) (a : Word) (n : Width) (v : BitVec 64) :
    s.bufWrite a n v = s.setConflict ∨ s.bufWrite a n v = s ∨
      (s.isBusy = false ∧ a.toNat + n.bytes ≤ Config.bufBytes ∧
        s.bufWrite a n v = s.writeBytes a.toNat (leBytes n.bytes v.toNat)) := by
  unfold State.bufWrite
  split
  · exact .inl rfl
  · split
    · exact .inr (.inr ⟨by simpa using ‹¬ s.isBusy = true›,
        of_decide_eq_true ‹bufInside a n = true›, rfl⟩)
    · exact .inr (.inl rfl)

/-- What a buffer read can do (20_memory.md R76, R77). -/
theorem bufRead_cases (s : State) (a : Word) (n : Width) :
    s.bufRead a n = (s.answer 0).setConflict ∨ ∃ v, s.bufRead a n = s.answer v := by
  unfold State.bufRead
  split
  · exact .inl rfl
  · split <;> exact .inr ⟨_, rfl⟩

end Sys2Proof.Machine
end

