-- ==== Sys2Proof/Laws/Svd.lean ====
section
/-! SUPPORT. The parameter SVD meets its contract (42_tensor_train.md R158), and the contract shuts out
no sequence that meets it. -/

namespace Sys2Proof.Machine

/-- A singular value the contract allows after `before`: not NaN, not negative, not above it. -/
def sigmaLegal (before x : F64) : Prop :=
  F64.isNaN x = false ∧ 0 ≤ F64.key x ∧ F64.key x ≤ F64.key before

theorem contractSigma_legal {before : F64} (raw : F64) (hn : F64.isNaN before = false)
    (hk : 0 ≤ F64.key before) : sigmaLegal before (contractSigma before raw) := by
  unfold contractSigma
  split
  · exact ⟨by decide, by decide, by rwa [show F64.key 0 = 0 by decide]⟩
  · rename_i h
    simp only [Bool.or_eq_true, decide_eq_true_eq, not_or, Int.not_lt, Bool.not_eq_true] at h
    split
    · exact ⟨hn, hk, Int.le_refl _⟩
    · exact ⟨h.1, h.2, Int.not_lt.1 ‹_›⟩

theorem contractSigma_eq_self {before x : F64} (h : sigmaLegal before x) :
    contractSigma before x = x := by
  obtain ⟨h1, h2, h3⟩ := h
  unfold contractSigma
  rw [if_neg (by simp only [h1, Bool.false_or, decide_eq_true_eq]; omega),
    if_neg (Int.not_lt.2 h3)]

/-- Each value is legal after the one before it. -/
def sigmaChain : F64 → List F64 → Prop
  | _, [] => True
  | before, x :: xs => sigmaLegal before x ∧ sigmaChain x xs

theorem sigmaFrom_chain (raw : Nat → F64) {before : F64} (hn : F64.isNaN before = false)
    (hk : 0 ≤ F64.key before) (j n : Nat) : sigmaChain before (sigmaFrom raw before j n) := by
  induction n generalizing before j with
  | zero => trivial
  | succ n ih =>
    have h := contractSigma_legal (raw j) hn hk
    exact ⟨h, ih h.1 h.2.1 (j + 1)⟩

@[simp] theorem sigmaFrom_length (raw : Nat → F64) (before : F64) (j n : Nat) :
    (sigmaFrom raw before j n).length = n := by
  induction n generalizing before j with
  | zero => rfl
  | succ n ih => simp only [sigmaFrom, List.length_cons, ih]

/-- The singular values of every matrix: `min(p, q)` of them, none NaN, none negative, not rising
(R158). -/
theorem singularValues_contract (m : CMat) :
    (singularValues m).length = min m.rows m.cols ∧
      sigmaChain (BitVec.ofNat 64 F64.infMag) (singularValues m) :=
  ⟨sigmaFrom_length _ _ _ _, sigmaFrom_chain _ (by decide) (by decide) 0 _⟩

/-- A raw sequence that meets the contract is kept as it is. -/
theorem sigmaFrom_eq_raw (raw : Nat → F64) {before : F64} (j n : Nat)
    (h : sigmaChain before ((List.range' j n).map raw)) :
    sigmaFrom raw before j n = (List.range' j n).map raw := by
  induction n generalizing before j with
  | zero => rfl
  | succ n ih =>
    simp only [List.range'_succ, List.map_cons, sigmaChain] at h ⊢
    rw [sigmaFrom, contractSigma_eq_self h.1, ih (j + 1) h.2]

end Sys2Proof.Machine
end

