-- ==== Sys2Proof/Tests/Slice0.lean ====
section
/-! SUPPORT. Tests of single steps and of the decoder, every expected value written out from spec/
(95_test_vectors.md where a T-name is given), and for each obligation with hypotheses a witness: a
concrete state and operands that meet all of them. BUF_BYTES and WORK_ELEMS are open, so every range
here lies in the first 4096 bytes, which every BUF has. -/

namespace Sys2Proof.Tests

open Sys2Proof Sys2Proof.Machine

-- One theorem after the other: so many kernel evaluations at once would each hold a thread.
set_option Elab.async false

/-! ## Helpers -/

/-- The reset state with bytes at `a` as the source range, and a destination range. -/
def given (a : Nat) (bs : List Byte) (d c : Nat) : State :=
  { State.reset with
    srcAddr := BitVec.ofNat 32 a
    srcLen := BitVec.ofNat 32 bs.length
    dstAddr := BitVec.ofNat 32 d
    dstCap := BitVec.ofNat 32 c
    buf := cellsFrom a bs }

theorem given_srcBytes {a : Nat} {bs : List Byte} (d c : Nat) (ha : a < 2 ^ 32)
    (hb : bs.length < 2 ^ 32) : (given a bs d c).srcBytes = bs := by
  have h := memoryHolds_writeBytes State.reset a bs
  have e : (State.reset.writeBytes a bs).buf = (given a bs d c).buf := List.append_nil _
  rw [State.srcBytes, show (given a bs d c).srcAddr.toNat = a from Nat.mod_eq_of_lt ha,
    show (given a bs d c).srcLen.toNat = bs.length from Nat.mod_eq_of_lt hb]
  exact (readBytes_congr e.symm rfl a bs.length).trans h

/-- The answer is a next state of which `p` holds. -/
def next (o : Host.Outcome State Fault Refusal) (p : State → Bool) : Bool :=
  match o with
  | .next t => p t
  | _ => false

/-- The STATUS word and the four result registers (the "Results" of 95_test_vectors.md). -/
def shows (t : State) (status : Word) (r c a0 a1 : Nat) : Bool :=
  t.statusWord == status && t.resultLen.toNat == r && t.consumed.toNat == c &&
    t.aux0.toNat == a0 && t.aux1.toNat == a1

/-- The length array with the entries listed. -/
def lens (e : List (Byte × BitVec 8)) : Table (BitVec 8) :=
  .tabulate fun x => (e.lookup x).getD 0

/-- The lengths of T-H1. -/
def abraLens : Table (BitVec 8) :=
  lens [(0x61#8, 1#8), (0x72#8, 2#8), (0x62#8, 3#8), (0x63#8, 4#8), (0x64#8, 4#8)]

/-- The codes of T-H1. -/
def abraCodes : Table (BitVec 255) :=
  .tabulate fun x =>
    ((([(0x61#8, 0x0#255), (0x72#8, 0x2#255), (0x62#8, 0x6#255), (0x63#8, 0xE#255),
      (0x64#8, 0xF#255)] : List (Byte × BitVec 255)).lookup x).getD 0)

/-- The state with the table of T-H1. -/
def withAbra (s : State) : State := s.setTable abraLens abraCodes true

/-- "abracadabra" (T-H1). -/
def abra : List Byte :=
  [0x61#8, 0x62#8, 0x72#8, 0x61#8, 0x63#8, 0x61#8, 0x64#8, 0x61#8, 0x62#8, 0x72#8, 0x61#8]

/-- The counters with the entries listed. -/
def counts (e : List (Byte × BitVec 64)) : Table (BitVec 64) :=
  .tabulate fun x => (e.lookup x).getD 0

/-- The 48-byte chain of T-T1. -/
def chainT1 : List Byte :=
  [0x01#8, 0#8, 0#8, 0#8, 0#8, 0x01#8, 0#8, 0#8, 0x02#8, 0#8, 0#8, 0#8, 0x01#8, 0#8, 0#8, 0#8] ++
    List.replicate 22 0#8 ++ [0xF0#8, 0x3F#8] ++ List.replicate 8 0#8

/-- The completion of `i` just issued at `s`. -/
def complete (i : Instr) (s : State) : Host.Outcome State Fault Refusal :=
  exec i (s.issue (encodeWord i))

/-- That completion is the step of a block with nothing on its agenda. -/
theorem complete_eq_step (i : Instr) (s : State) (h : s.agenda = []) :
    complete i s = step (s.issue (encodeWord i)) := by
  have h' : (s.issue (encodeWord i)).agenda = [] := h
  rw [step, h']
  cases i <;> rfl

/-- `bs` and `cs` apart in the first 4096 bytes. -/
theorem operands_pass {s : State} (i : Instr)
    (h : (decide (s.srcAddr.toNat + s.srcLen.toNat ≤ 4096) &&
      (decide (s.dstAddr.toNat + s.dstCap.toNat ≤ 4096) && decide (RangesApart s))) = true) :
    firstFailing (operandChecks i s) = none := by
  simp only [Bool.and_eq_true, decide_eq_true_eq] at h
  exact (operandChecks_pass i s).2 ⟨fun _ => Nat.le_trans h.1 bufBytes_ge,
    fun _ => Nat.le_trans h.2.1 bufBytes_ge, fun _ _ => h.2.2⟩

/-! ## Well-formedness: one ill-formed word for each check of R103 -/

theorem test_wf_refuses_reserved_opcode : (CmdWord.mk 0x0F#8 0#24).opcodeAssigned = false ∧
    (CmdWord.mk 0x0F#8 0#24).wellFormed = false := by decide

theorem test_wf_refuses_reserved_bits : (CmdWord.mk 0x0B#8 1#24).reservedClear = false ∧
    (CmdWord.mk 0x0B#8 1#24).wellFormed = false := by decide

theorem test_wf_accepts : (CmdWord.mk 0x0E#8 0#24).wellFormed = true := by decide

/-! ## Decoding: the words of R102 written out, and the illegal words T-C2 to T-C5 -/

theorem test_decode_nop : decodeWord 0x00000000#32 = .ok .nop := by decide
theorem test_decode_amp_map : decodeWord 0x00000001#32 = .ok .ampMap := by decide
theorem test_decode_amp_unmap : decodeWord 0x00000002#32 = .ok .ampUnmap := by decide
theorem test_decode_decompose : decodeWord 0x00000003#32 = .ok .decompose := by decide
theorem test_decode_chain_check : decodeWord 0x00000004#32 = .ok .chainCheck := by decide
theorem test_decode_reconstruct : decodeWord 0x00000005#32 = .ok .reconstruct := by decide
theorem test_decode_hist_clear : decodeWord 0x00000006#32 = .ok .histClear := by decide
theorem test_decode_hist_accum : decodeWord 0x00000007#32 = .ok .histAccum := by decide
theorem test_decode_build_table : decodeWord 0x00000008#32 = .ok .buildTable := by decide
theorem test_decode_table_store : decodeWord 0x00000009#32 = .ok .tableStore := by decide
theorem test_decode_table_load : decodeWord 0x0000000A#32 = .ok .tableLoad := by decide
theorem test_decode_encode : decodeWord 0x0000000B#32 = .ok .encode := by decide
theorem test_decode_decode : decodeWord 0x0000000C#32 = .ok .decode := by decide
theorem test_decode_hdr_pack : decodeWord 0x0000000D#32 = .ok .hdrPack := by decide
theorem test_decode_hdr_parse : decodeWord 0x0000000E#32 = .ok .hdrParse := by decide

theorem test_illegal_words : decodeWord 0x0000000F#32 = .error .badOpcode ∧
    decodeWord 0x00000100#32 = .error .reservedBits ∧
    decodeWord 0x0000010B#32 = .error .reservedBits ∧
    decodeWord 0xFFFFFFFF#32 = .error .badOpcode := by decide

theorem test_table_word : decodeTableWord 32 0x0B = some .encode ∧
    decodeTableWord 32 0x10B = none ∧ decodeTableWord 8 0x10B = some .encode := by decide

/-! ## One step per command -/

/-- T-C1. -/
theorem test_nop : next (complete .nop State.reset) (fun t => shows t 0x00000002#32 0 0 0 0) := by
  decide +kernel

/-- T-C5: BAD_OPCODE wins over RESERVED_BITS. -/
theorem test_illegal_completion :
    next (step (State.reset.issue 0xFFFFFFFF#32)) (fun t => shows t 0xFF010106#32 0 0 0 0) := by
  decide +kernel

/-- T-A3. -/
theorem test_amp_map : next (complete .ampMap (given 0 [0x00, 0xFF] 0x100 32)) (fun t =>
    shows t 0x01000002#32 32 2 0 0 &&
      t.readBytes 0x100 32 == List.replicate 22 0#8 ++ [0xF0#8, 0x3F#8] ++ List.replicate 8 0#8) :=
  by
  show next (execAmpMap _) _
  rw [execAmpMap, runCommand_append _ _ (operands_pass _ (by decide +kernel))]
  decide +kernel

/-- R143: 0.5 maps to 0x80, and a NaN imaginary part does no harm. -/
theorem test_amp_unmap : next (complete .ampUnmap (given 0 (leBytes 8 0x3FE0000000000000 ++ leBytes 8 0x7FF8000000000000) 0x100 1))
    (fun t => shows t 0x02000002#32 1 16 0 0 && t.readByte 0x100 == 0x80#8) := by
  show next (execAmpUnmap _) _
  rw [execAmpUnmap, runCommand_append _ _ (operands_pass _ (by decide +kernel))]
  decide +kernel

/-- R141: 255 times these is exactly 0.5 and 2.5, ties that go away from zero, to odd integers. -/
theorem test_unamp_ties : unamp ⟨0x3F60101010101010#64, 0⟩ = 1#8 ∧
    unamp ⟨0x3F84141414141414#64, 0⟩ = 3#8 := by decide +kernel

/-- T-A5. -/
theorem test_amp_unmap_misaligned : next (complete .ampUnmap (given 0 (List.replicate 15 0#8) 0x100 1))
    (fun t => shows t 0x02140206#32 0 0 0 0) := by
  show next (execAmpUnmap _) _
  rw [execAmpUnmap, runCommand_append _ _ (operands_pass _ (by decide +kernel))]
  decide +kernel

/-- T-T1. -/
theorem test_decompose : next (complete .decompose (given 0 [0x00#8, 0xFF#8] 0x100 64))
    (fun t => shows t 0x03000002#32 48 2 1 0 && t.readBytes 0x100 48 == chainT1 && t.origLen == 2) := by
  show next (execDecompose _) _
  rw [execDecompose, runCommand_append _ _ (operands_pass _ (by decide +kernel)),
    workElems_lt_eq_false (by decide +kernel)]
  decide +kernel

/-- T-T4, the last row. -/
theorem test_decompose_out_cap : next (complete .decompose (given 0 [0x00#8, 0xFF#8] 0x100 47))
    (fun t => shows t 0x03130206#32 0 0 0 0 && t.origLen == 0 && t.readByte 1 == 0xFF#8) := by
  show next (execDecompose _) _
  rw [execDecompose, runCommand_append _ _ (operands_pass _ (by decide +kernel)),
    workElems_lt_eq_false (by decide +kernel)]
  decide +kernel

/-- T-T5, with trailing bytes. -/
theorem test_chain_check : next (complete .chainCheck (given 0x100 (chainT1 ++ List.replicate 5 0xEE#8) 0 0))
    (fun t => shows t 0x04000002#32 0 48 2 0) := by
  show next (execChainCheck _) _
  rw [execChainCheck, runCommand_operands _ (operands_pass _ (by decide +kernel))]
  decide +kernel

/-- T-T5: 3 rows, with 2 entries present. -/
theorem test_chain_check_truncated : next (complete .chainCheck (given 0x100 (chainT1.set 8 0x03#8) 0 0))
    (fun t => shows t 0x04490506#32 0 0 0 0) := by
  show next (execChainCheck _) _
  rw [execChainCheck, runCommand_operands _ (operands_pass _ (by decide +kernel))]
  decide +kernel

/-- R190. -/
theorem test_hist_clear : next (complete .histClear { State.reset with freq := counts [(0x61#8, 5#64)] })
    (fun t => shows t 0x06000002#32 0 0 0 0 && t.freq.entry 0x61 == 0#64) := by
  show next (execHistClear _) _
  rw [execHistClear, runCommand_operands _ (operands_pass _ (by decide +kernel))]
  decide +kernel

/-- T-H14. -/
theorem test_hist_accum_overflow : next (complete .histAccum
      { given 0 [0x00#8] 0 0 with freq := counts [(0x00#8, 0xFFFFFFFFFFFFFFFF#64)] })
    (fun t => shows t 0x07320406#32 0 0 0 0) := by
  show next (execHistAccum _) _
  rw [execHistAccum, runCommand_operands _ (operands_pass _ (by decide +kernel))]
  decide +kernel

/-! The tables: entries of the 256-entry vectors are looked up through `Table.entry_tabulate`, so that
the kernel walks no vector. -/

theorem abra_coded : codedSymbols abraLens = [0x61#8, 0x62#8, 0x63#8, 0x64#8, 0x72#8] := by
  simp only [codedSymbols, abraLens, lens, Table.entry_tabulate]
  decide +kernel

/-- T-H1: the canonical codes of the lengths. -/
theorem test_canonical_codes : canonicalCodes abraLens =
    [(0x61#8, 0x0), (0x72#8, 0x2), (0x62#8, 0x6), (0x63#8, 0xE), (0x64#8, 0xF)] := by
  rw [canonicalCodes, canonicalOrder, abra_coded]
  decide +kernel

theorem abra_canonical : canonical abraLens = abraCodes := by
  apply Table.ext_entry
  simp only [canonical, test_canonical_codes, abraCodes, Table.entry_tabulate]
  decide +kernel

theorem abra_book : codeBook abraLens abraCodes =
    [(0x61#8, [false]), (0x62#8, [true, true, false]), (0x63#8, [true, true, true, false]),
     (0x64#8, [true, true, true, true]), (0x72#8, [true, false])] := by
  rw [codeBook, abra_coded]
  decide +kernel

/-- "abra" and then "cadabra", as the second of the two HIST_ACCUM of T-H2. -/
def histState : State :=
  { given 0 [0x63#8, 0x61#8, 0x64#8, 0x61#8, 0x62#8, 0x72#8, 0x61#8] 0 0 with
    freq := counts [(0x61#8, 2#64), (0x62#8, 1#64), (0x72#8, 1#64)] }

/-- T-H2: the histogram accumulates to the counts of T-H1. -/
theorem test_hist_accum : next (complete .histAccum histState) (fun t =>
    shows t 0x07000002#32 0 7 0 0 &&
      [0x61#8, 0x62#8, 0x63#8, 0x64#8, 0x72#8, 0x7A#8].map t.freq.entry ==
        [5#64, 2#64, 1#64, 1#64, 2#64, 0#64]) := by
  have h : histOverflows (histState.issue (encodeWord .histAccum)).freq
      (histState.issue (encodeWord .histAccum)).srcBytes = false := by
    show histOverflows (counts _) _ = false
    simp only [histOverflows, counts, Table.entry_tabulate]
    decide +kernel
  show next (execHistAccum _) _
  rw [execHistAccum, runCommand_operands _ (operands_pass _ (by decide +kernel)), histAccumBody]
  simp only [h]
  decide +kernel

/-- The histogram of T-H3. -/
def tieState : State :=
  { State.reset with
    freq := counts [(0#8, 1#64), (1#8, 1#64), (2#8, 2#64), (3#8, 2#64)] }

theorem tie_present : presentSymbols tieState.freq = [0#8, 1#8, 2#8, 3#8] := by
  simp only [presentSymbols, tieState, counts, Table.entry_tabulate]
  decide +kernel

/-- The lengths of T-H3. -/
theorem tie_lengths : tableLengths tieState.freq =
    lens [(0#8, 3#8), (1#8, 3#8), (2#8, 2#8), (3#8, 1#8)] := by
  have h : huffmanRoot tieState.freq =
      some (.node (.leaf 3#8) (.node (.node (.leaf 0#8) (.leaf 1#8)) (.leaf 2#8))) := by
    rw [huffmanRoot, leafQueue, tie_present]
    decide +kernel
  have e : tableLengths tieState.freq = buildLengths tieState.freq := by
    rw [tableLengths, tie_present]; rfl
  apply Table.ext_entry
  rw [e, buildLengths, h]
  simp only [lens, tieState, counts, Table.entry_tabulate]
  decide +kernel

/-- T-H3: the tie-break through an internal node's key. -/
theorem test_build_table : next (complete .buildTable tieState) (fun t =>
    shows t 0x08000012#32 0 0 4 3 &&
      [0#8, 1#8, 2#8, 3#8].map t.len.entry == [3#8, 3#8, 2#8, 1#8] &&
      [0#8, 1#8, 2#8, 3#8].map t.code.entry == [6#255, 7#255, 2#255, 0#255]) := by
  have hc : codedSymbols (lens [(0#8, 3#8), (1#8, 3#8), (2#8, 2#8), (3#8, 1#8)]) =
      [0#8, 1#8, 2#8, 3#8] := by
    simp only [codedSymbols, lens, Table.entry_tabulate]
    decide +kernel
  show next (execBuildTable _) _
  rw [execBuildTable, runCommand_operands _ (operands_pass _ (by decide +kernel))]
  show next (.next (Ended.complete (succeed (State.setTable _ (tableLengths tieState.freq)
    (canonical (tableLengths tieState.freq)) true)
    { aux0 := (presentSymbols tieState.freq).length
      aux1 := maxLength (tableLengths tieState.freq) }))) _
  rw [tie_present, tie_lengths, canonical, canonicalCodes, canonicalOrder, maxLength, hc]
  decide +kernel

/-- T-H1: TABLE_STORE. -/
theorem test_table_store : next (complete .tableStore (withAbra (given 0 [] 0x100 256))) (fun t =>
    shows t 0x09000012#32 256 0 5 4 &&
      t.readBytes 0x160 5 == [0x00#8, 0x01#8, 0x03#8, 0x04#8, 0x04#8] && t.readByte 0x1FF == 0#8) :=
  by
  show next (execTableStore _) _
  rw [execTableStore, runCommand_append _ _ (operands_pass _ (by decide +kernel)),
    runCommand_passed _ (by decide +kernel)]
  show next (.next (Ended.complete (succeed (State.writeDst _ (symbols.map abraLens.entry))
    { resultLen := Config.tableBytes, aux0 := codedCount abraLens
      aux1 := maxLength abraLens }))) _
  rw [codedCount, maxLength, abra_coded]
  simp only [abraLens, lens, Table.entry_tabulate]
  decide +kernel

/-- R195: NO_TABLE. -/
theorem test_table_store_no_table : next (complete .tableStore (given 0 [] 0x100 256))
    (fun t => shows t 0x09300406#32 0 0 0 0) := by
  show next (execTableStore _) _
  rw [execTableStore, runCommand_append _ _ (operands_pass _ (by decide +kernel))]
  decide +kernel

/-- The length bytes of T-H7. -/
def shortLens : List Byte := [0x01#8, 0x02#8] ++ List.replicate 254 0#8

def loadState : State := (given 0x100 shortLens 0 0).issue (encodeWord .tableLoad)

theorem load_bytes : loadState.srcBytes = shortLens :=
  given_srcBytes 0 0 (by decide +kernel) (by decide +kernel)

/-- T-H7: a table whose Kraft sum is 3/4 loads. -/
theorem test_table_load : next (exec .tableLoad loadState) (fun t =>
    shows t 0x0A000012#32 0 256 2 2 && t.code.entry 0 == 0#255 && t.code.entry 1 == 2#255) := by
  have hc : codedSymbols (lengthsOfBytes shortLens) = [0#8, 1#8] := by
    simp only [codedSymbols, lengthsOfBytes, Table.entry_tabulate]
    decide +kernel
  have ha : admissible (lengthsOfBytes shortLens) = true := by
    rw [admissible, kraftSum, hc]
    decide +kernel
  have hb : tableLoadBody loadState =
      succeed (loadState.setTable (lengthsOfBytes shortLens)
        (canonical (lengthsOfBytes shortLens)) true)
      { consumed := 256
        aux0 := codedCount (lengthsOfBytes shortLens)
        aux1 := maxLength (lengthsOfBytes shortLens) } := by
    rw [tableLoadBody, load_bytes]
    exact if_pos ha
  show next (execTableLoad _) _
  rw [execTableLoad, runCommand_append _ _ (operands_pass _ (by decide +kernel)),
    runCommand_passed _ (by decide +kernel), hb, codedCount, maxLength, canonical, canonicalCodes,
    canonicalOrder, hc]
  decide +kernel

/-- T-H10: a length other than 256. -/
theorem test_table_load_length : next (complete .tableLoad (given 0x100 [0x01#8] 0 0))
    (fun t => shows t 0x0A440506#32 0 0 0 0) := by
  show next (execTableLoad _) _
  rw [execTableLoad, runCommand_append _ _ (operands_pass _ (by decide +kernel))]
  decide +kernel

/-- T-H1. -/
theorem test_encode : next (complete .encode (withAbra (given 0 abra 0x100 11))) (fun t =>
    shows t 0x0B000012#32 11 11 23 0 && t.readBytes 0x100 11 ==
      [0x0B#8, 0#8, 0#8, 0#8, 0#8, 0#8, 0#8, 0#8, 0x69#8, 0xCF#8, 0x68#8]) := by
  show next (execEncode _) _
  rw [execEncode, runCommand_append _ _ (operands_pass _ (by decide +kernel))]
  decide +kernel

/-- T-H11: SYMBOL_UNCODED wins over OUT_CAP. -/
theorem test_encode_uncoded :
    next (complete .encode (withAbra (given 0 [0x61#8, 0x62#8, 0x7A#8] 0x100 0)))
      (fun t => shows t 0x0B310416#32 0 0 0 0) := by
  show next (execEncode _) _
  rw [execEncode, runCommand_append _ _ (operands_pass _ (by decide +kernel))]
  decide +kernel

/-- A payload of T-H12, with the count given. -/
def payloadState (count : Byte) (c : Nat) : State :=
  (withAbra (given 0x200
    [count, 0#8, 0#8, 0#8, 0#8, 0#8, 0#8, 0#8, 0x69#8, 0xCF#8, 0x68#8] 0x300 c)).issue
      (encodeWord .decode)

/-- T-H12: the count 12 reads the padding bit as one more symbol. -/
theorem test_decode : next (exec .decode (payloadState 0x0C#8 12)) (fun t =>
    shows t 0x0C000012#32 12 11 24 0 && t.readBytes 0x300 12 == abra ++ [0x61#8]) := by
  show next (execDecode _) _
  rw [execDecode, runCommand_append _ _ (operands_pass _ (by decide +kernel)),
    runCommand_passed _ (by decide +kernel), decodeBody,
    show codeBook (payloadState 0x0C#8 12).len (payloadState 0x0C#8 12).code = _ from abra_book]
  decide +kernel

/-- T-H12: the count 13 runs out of bits. -/
theorem test_decode_bits_exhausted : next (exec .decode (payloadState 0x0D#8 13)) (fun t =>
    shows t 0x0C470516#32 0 0 0 0) := by
  show next (execDecode _) _
  rw [execDecode, runCommand_append _ _ (operands_pass _ (by decide +kernel)),
    runCommand_passed _ (by decide +kernel), decodeBody,
    show codeBook (payloadState 0x0D#8 13).len (payloadState 0x0D#8 13).code = _ from abra_book]
  decide +kernel

/-- T-K2: SRC_LEN is not held to BUF. -/
theorem test_hdr_pack : next (complete .hdrPack { given 0 [] 0x400 9 with srcLen := 0x12345678#32 })
    (fun t => shows t 0x0D000002#32 9 0 0 0 && t.readBytes 0x400 9 ==
      [0x51#8, 0x43#8, 0x4D#8, 0x50#8, 0x01#8, 0x78#8, 0x56#8, 0x34#8, 0x12#8]) := by
  show next (execHdrPack _) _
  rw [execHdrPack, runCommand_append _ _ ((operandChecks_pass _ _).2 ⟨fun h => absurd h (by decide),
    fun _ => Nat.le_trans (by decide +kernel) bufBytes_ge, fun h => absurd h (by decide)⟩)]
  decide +kernel

/-- T-K2. -/
theorem test_hdr_pack_out_cap : next (complete .hdrPack (given 0 [] 0x400 8))
    (fun t => shows t 0x0D130206#32 0 0 0 0) := by
  show next (execHdrPack _) _
  rw [execHdrPack, runCommand_append _ _ (operands_pass _ (by decide +kernel))]
  decide +kernel

/-- T-K3, the first row. -/
theorem test_hdr_parse : next (complete .hdrParse
      { given 0x400 [0x51#8, 0x43#8, 0x4D#8, 0x50#8, 0x01#8, 0#8, 0x01#8, 0#8, 0#8] 0 0 with srcLen := 309#32 })
    (fun t => shows t 0x0E000002#32 0 9 256 44) := by
  show next (execHdrParse _) _
  rw [execHdrParse, runCommand_append _ _ (operands_pass _ (by decide +kernel))]
  decide +kernel

/-- T-K3: SRC_LEN 264. -/
theorem test_hdr_parse_table_truncated : next (complete .hdrParse
      { given 0x400 [0x51#8, 0x43#8, 0x4D#8, 0x50#8, 0x01#8, 0#8, 0x01#8, 0#8, 0#8] 0 0 with srcLen := 264#32 })
    (fun t => shows t 0x0E430506#32 0 0 0 0) := by
  show next (execHdrParse _) _
  rw [execHdrParse, runCommand_append _ _ (operands_pass _ (by decide +kernel))]
  decide +kernel

/-! ## The ports -/

/-- R76: a wide write puts its least significant byte at the lowest address. -/
theorem test_buffer_write : ((State.reset.bufWrite 0x10#32 .b4 0x11223344#64).readByte 0x10 = 0x44#8) ∧
    (State.reset.bufWrite 0x10#32 .b4 0x11223344#64).readByte 0x13 = 0x11#8 := by
  have h : bufInside 0x10#32 .b4 = true :=
    decide_eq_true (Nat.le_trans (by decide : (0x10#32).toNat + Width.b4.bytes ≤ 4096) bufBytes_ge)
  rw [State.bufWrite, if_neg (by decide), if_pos h]
  decide +kernel

/-- R27 and R77: a CMD write and a buffer write while Busy set the sticky flags only. -/
theorem test_busy_writes :
    (((State.reset.issue 0x06#32).regWrite 0x0C#8 0x07#32).bufWrite 0 .b1 0x55#64).statusWord =
      0x06000061#32 := by decide +kernel

/-- T-H13: readback of the table of T-H1. -/
theorem test_readback : let s := (withAbra State.reset).regWrite 0x4C#8 0x63#32
    s.regValue .tlen = 4#32 ∧ s.regValue (.tcode 0) = 0xE#32 ∧ s.regValue (.tcode 7) = 0#32 := by
  decide +kernel

/-- R280: reset gives the reset state's STATUS whatever the block was doing. -/
theorem test_platform_reset : (platformReset ((withAbra State.reset).issue 0x08#32)).statusWord = 0#32 ∧
    (platformReset (State.reset.issue 0x08#32)).regValue .maxRank = 64#32 := by decide +kernel

/-- R111: CHECK ends the host's program on an error and leaves the engine's move. -/
theorem test_check_stops :
    (hostCheck { State.reset with
      errCode := .badRange, errDetail := .srcRange
      agenda := [.host (.regRead 0x10#8), .engine, .wait] }).agenda = [.engine] := by decide +kernel

/-- Assumption 23: BUFBYTES at the last address gives one transaction and does not wrap. -/
theorem test_bufbytes_does_not_wrap :
    bufBytesTurns 0xFFFFFFFF#32 [0x11#8, 0x22#8] =
      [.host (.bufWrite 0xFFFFFFFF#32 .b1 0x11#64)] := by decide +kernel

/-! ## Witnesses: the hypotheses of each obligation met together, at the boundary of each clause -/

theorem inside_of_le {a n : Nat} (h : a + n ≤ 4096) : a + n ≤ Config.bufBytes :=
  Nat.le_trans h bufBytes_ge

theorem next_exists {o : Host.Outcome State Fault Refusal} {p : State → Bool}
    (h : next o p = true) : ∃ t, o = .next t ∧ p t = true := by
  cases o with
  | next t => exact ⟨t, rfl, h⟩
  | fault r => cases r
  | refused r => cases h

/-- The address right after BUF, as a register value. -/
def pastBuf : Word := BitVec.ofNat 32 Config.bufBytes

theorem pastBuf_toNat : pastBuf.toNat = Config.bufBytes := by
  rw [pastBuf, BitVec.toNat_ofNat]
  exact Nat.mod_eq_of_lt (Nat.lt_of_le_of_lt bufBytes_le (by decide))

theorem witness_IllegalWordIsIssuedAndFails :
    ∃ s u v : State, s.isBusy = false ∧ u.isBusy = false ∧ v.isBusy = false ∧
      s.agenda = .host (.regWrite 0x0C#8 0x0000000F#32) :: .engine :: [] ∧
      0x0F ≤ (0x0000000F#32).toNat % 256 ∧
      u.agenda = .host (.regWrite 0x0C#8 0xFFFFFFFF#32) :: .engine :: [] ∧
      0x0F ≤ (0xFFFFFFFF#32).toNat % 256 ∧
      v.agenda = .host (.regWrite 0x0C#8 0x0000010E#32) :: .engine :: [] ∧
      (0x0000010E#32).toNat % 256 < 0x0F ∧ (0x0000010E#32).toNat / 256 ≠ 0 :=
  ⟨{ State.reset with agenda := .host (.regWrite 0x0C#8 0x0000000F#32) :: .engine :: [] },
    { State.reset with agenda := .host (.regWrite 0x0C#8 0xFFFFFFFF#32) :: .engine :: [] },
    { State.reset with agenda := .host (.regWrite 0x0C#8 0x0000010E#32) :: .engine :: [] },
    rfl, rfl, rfl, rfl, by decide, rfl, by decide, rfl, by decide, by decide⟩

theorem witness_StepTakesTheNextMove :
    (∃ s : State, s.agenda = [] ∧ s.engine = .busy 0x0E#32 ∧ decodeWord 0x0E#32 = .ok .hdrParse) ∧
    (∃ s : State, s.agenda = .engine :: [.wait] ∧ s.engine = .busy 0#32 ∧
      decodeWord 0#32 = .ok .nop) ∧
    (∃ s : State, s.engine = .busy 0x0000010F#32 ∧ s.agenda = [] ∧
      0x0F ≤ (0x0000010F#32).toNat % 256) ∧
    (∃ s : State, s.engine = .busy 0x0000010E#32 ∧ s.agenda = .engine :: [.wait] ∧
      (0x0000010E#32).toNat % 256 < 0x0F ∧ (0x0000010E#32).toNat / 256 ≠ 0) ∧
    (∃ s : State, s.agenda = .host (.regRead 0x10#8) :: []) ∧
    (∃ s : State, s.agenda = .check :: [.wait] ∧ s.errCode = .none) ∧
    (∃ s : State, s.agenda = .check :: [.wait, .engine] ∧ s.errCode ≠ .none) ∧
    (State.reset.agenda = [] ∧ State.reset.engine = .idle) :=
  ⟨⟨State.reset.issue 0x0E#32, rfl, rfl, rfl⟩,
    ⟨{ State.reset.issue 0#32 with agenda := .engine :: [.wait] }, rfl, rfl, rfl⟩,
    ⟨State.reset.issue 0x0000010F#32, rfl, rfl, by decide⟩,
    ⟨{ State.reset.issue 0x0000010E#32 with agenda := .engine :: [.wait] }, rfl, rfl, by decide,
      by decide⟩,
    ⟨{ State.reset with agenda := .host (.regRead 0x10#8) :: [] }, rfl⟩,
    ⟨{ State.reset with agenda := .check :: [.wait] }, rfl, rfl⟩,
    ⟨{ State.reset with agenda := .check :: [.wait, .engine], errCode := .badRange }, rfl, by decide⟩,
    rfl, rfl⟩

theorem witness_CmdRegisterIssuesOrOverruns :
    State.reset.isBusy = false ∧ (State.reset.issue 0x08#32).isBusy = true := ⟨rfl, rfl⟩

/-- The interrupt output asserted, Idle, and the three writes that drop it. -/
theorem witness_StatusAndIrqEnWrites :
    ∃ s : State, s.irq = true ∧ s.isBusy = false ∧ (0x02#32).getLsbD 1 = true ∧
      (0xFFFFFFFE#32).getLsbD 0 = false :=
  ⟨{ State.reset with done := true, doneIE := true }, rfl, rfl, by decide, by decide⟩

theorem witness_IdleWriteStoresOperand :
    (regIsOperand .srcAddr = true ∧ State.reset.isBusy = false ∧ Reg.tsel ≠ .srcAddr ∧
      Reg.srcAddr ≠ .tsel) ∧
    (regIsOperand .tsel = true ∧ Reg.cmd ≠ .tsel ∧
      (Reg.cmd ≠ .tlen ∧ Reg.cmd ≠ .tfreqLo ∧ Reg.cmd ≠ .tfreqHi ∧ ∀ w, Reg.cmd ≠ .tcode w)) ∧
    (regIsOperand (.tcode 7) = false ∧ Reg.tcode 7 ≠ .cmd ∧ Reg.tcode 7 ≠ .status ∧
      Reg.tcode 7 ≠ .irqEn) :=
  ⟨⟨rfl, rfl, by decide, by decide⟩, ⟨rfl, by decide, by decide, by decide, by decide,
    fun w h => by cases h⟩, rfl, by decide, by decide, by decide⟩

theorem witness_BusyWriteIsRefused :
    (State.reset.issue 0x08#32).isBusy = true ∧
    (regAt 0x18#8 = some .srcAddr ∧ regIsOperand .srcAddr = true) ∧
    (regAt 0x4C#8 = some .tsel ∧ regIsOperand .tsel = true) ∧
    regAt 0x0C#8 = some .cmd ∧ regAt 0x14#8 = some .irqEn ∧ regAt 0x10#8 = some .status ∧
    (regAt 0x78#8 = some (.tcode 7) ∧ regIsOperand (.tcode 7) = false) ∧
    regAt 0x7C#8 = none ∧ regAt 0x19#8 = none := by decide

theorem witness_RegisterReadAnswers :
    State.reset.isBusy = false ∧ regUnstable .status = false ∧
    (State.reset.issue 0x08#32).isBusy = true ∧ regUnstable .origLenLo = true ∧
    regUnstable (.tcode 7) = true := by decide

theorem witness_RegisterMapIsExact :
    (0x01#8).toNat % 4 ≠ 0 ∧ (0x7B#8).toNat % 4 ≠ 0 ∧ 0x7C ≤ (0x7C#8).toNat ∧
    0x7C ≤ (0xFF#8).toNat := by decide

/-- The last 8 bytes of BUF are inside; the 8 bytes one further on are not. -/
theorem witness_BufferPortAccess :
    State.reset.isBusy = false ∧ (State.reset.issue 0x08#32).isBusy = true ∧
    (pastBuf - 8#32).toNat + Width.b8.bytes = Config.bufBytes ∧
    Config.bufBytes < (pastBuf - 7#32).toNat + Width.b8.bytes := by
  have h := pastBuf_toNat
  have h1 := bufBytes_ge
  have e8 : (pastBuf - 8#32).toNat = Config.bufBytes - 8 := by
    rw [BitVec.toNat_sub_of_le (by rw [BitVec.le_def, h]; exact Nat.le_trans (by decide) h1), h]
    rfl
  have e7 : (pastBuf - 7#32).toNat = Config.bufBytes - 7 := by
    rw [BitVec.toNat_sub_of_le (by rw [BitVec.le_def, h]; exact Nat.le_trans (by decide) h1), h]
    rfl
  rw [e8, e7, show Width.b8.bytes = 8 from rfl]
  exact ⟨rfl, rfl, by omega, by omega⟩

theorem witness_BusyHostCannotDisturbCommand : (State.reset.issue 0x08#32).isBusy = true := rfl

theorem witness_ResetStateValues : Reg.srcAddr ≠ .id ∧ Reg.srcAddr ≠ .version ∧
    Reg.srcAddr ≠ .bufSize ∧ Reg.srcAddr ≠ .maxRank := by decide

theorem witness_PlatformResetAbandonsCommand :
    ∃ s : State, s.agenda = .reset :: [.wait] ∧ s.isBusy = true :=
  ⟨{ State.reset.issue 0x08#32 with agenda := .reset :: [.wait] }, rfl, rfl⟩

theorem witness_WaitEndsWithEngineIdle :
    (∃ s : State, s.agenda = .wait :: [] ∧ s.isBusy = false) ∧
    ∃ s : State, s.agenda = .wait :: [.engine] ∧ s.isBusy = true :=
  ⟨⟨{ State.reset with agenda := .wait :: [] }, rfl, rfl⟩,
    ⟨{ State.reset.issue 0x08#32 with agenda := .wait :: [.engine] }, rfl, rfl⟩⟩

/-- The three operand conditions on a small state. -/
theorem ranges_legal {s : State}
    (h : (decide (s.srcAddr.toNat + s.srcLen.toNat ≤ 4096) &&
      (decide (s.dstAddr.toNat + s.dstCap.toNat ≤ 4096) && decide (RangesApart s))) = true) :
    SrcInside s ∧ DstInside s ∧ RangesApart s := by
  simp only [Bool.and_eq_true, decide_eq_true_eq] at h
  exact ⟨inside_of_le h.1, inside_of_le h.2.1, h.2.2⟩

/-- The result fits DST_CAP exactly. -/
theorem witness_AmpMapStoresAmplitudes : ∃ s : State, SrcInside s ∧ DstInside s ∧ RangesApart s ∧
    16 * s.srcLen.toNat = s.dstCap.toNat ∧ s.srcLen.toNat = 2 :=
  have h := ranges_legal (s := given 0 [0x00#8, 0xFF#8] 0x100 32) (by decide +kernel)
  ⟨_, h.1, h.2.1, h.2.2, rfl, rfl⟩

theorem witness_AmpUnmapStoresBytes : ∃ s : State, SrcInside s ∧ DstInside s ∧ RangesApart s ∧
    s.srcLen.toNat % 16 = 0 ∧ s.srcLen.toNat / 16 = s.dstCap.toNat ∧ s.srcLen.toNat = 32 :=
  have h := ranges_legal (s := given 0 (List.replicate 32 0#8) 0x100 2) (by decide +kernel)
  ⟨_, h.1, h.2.1, h.2.2, rfl, rfl, rfl⟩

/-- T-T1: the 48 bytes of the chain fit exactly. -/
theorem witness_DecomposeStoresChain : ∃ (s : State) (d : List Nat × List CMat),
    SrcInside s ∧ DstInside s ∧ RangesApart s ∧ s.maxRank ≠ 0 ∧ s.srcLen ≠ 0 ∧
    paddedCount s.srcLen.toNat ≤ Config.workElems ∧
    d = decomposition s.maxRank.toNat s.eps s.srcBytes ∧
    (chainBytes d.1 d.2).length = s.dstCap.toNat :=
  have h := ranges_legal (s := given 0 [0x00#8, 0xFF#8] 0x100 48) (by decide +kernel)
  ⟨_, _, h.1, h.2.1, h.2.2, by decide, by decide,
    Nat.le_trans (by decide +kernel : _ ≤ 65536) workElems_ge, rfl, by decide +kernel⟩

theorem chainT1_parses : ∃ c, parseChain chainT1 = .ok c ∧ c.padded = 2 := by
  refine ⟨⟨[], [⟨2, 1, [⟨0, 0⟩, ⟨0x3FF0000000000000#64, 0⟩]⟩], 2, 48⟩, ?_, rfl⟩
  decide +kernel

theorem witness_ChainCheckReportsChain :
    ∃ (s : State) (c : Chain), SrcInside s ∧ parseChain s.srcBytes = .ok c := by
  obtain ⟨c, hc, -⟩ := chainT1_parses
  refine ⟨given 0x100 chainT1 0 0, c, (ranges_legal (by decide +kernel)).1, ?_⟩
  rw [given_srcBytes 0 0 (by decide) (by decide)]
  exact hc

/-- ORIG_LEN, the padded length and DST_CAP are all 2. -/
theorem witness_ReconstructStoresBytes : ∃ (s : State) (c : Chain),
    SrcInside s ∧ DstInside s ∧ RangesApart s ∧ parseChain s.srcBytes = .ok c ∧
    c.padded ≤ Config.workElems ∧ s.origLen = c.padded ∧ s.origLen = s.dstCap.toNat := by
  obtain ⟨c, hc, h2⟩ := chainT1_parses
  have h := ranges_legal (s := (given 0x100 chainT1 0x200 2).setOrigLen 2) (by decide +kernel)
  refine ⟨_, c, h.1, h.2.1, h.2.2, ?_, by have := workElems_ge; omega, by rw [h2]; rfl, rfl⟩
  rw [show ((given 0x100 chainT1 0x200 2).setOrigLen 2).srcBytes = chainT1 from
    (readBytes_congr rfl rfl _ _).trans (given_srcBytes (a := 0x100) 0x200 2 (by decide) (by decide))]
  exact hc

/-- One counter ends at 2^64 - 1. -/
theorem witness_HistAccumAddsCounts : ∃ s : State, SrcInside s ∧
    (∀ x : Byte, (s.freq.entry x).toNat + s.srcBytes.count x ≤ 2 ^ 64 - 1) ∧
    (s.freq.entry 0).toNat + s.srcBytes.count 0 = 2 ^ 64 - 1 := by
  refine ⟨{ given 0 [0x00#8] 0 0 with freq := counts [(0x00#8, 0xFFFFFFFFFFFFFFFE#64)] },
    inside_of_le (by decide), ?_, by decide +kernel⟩
  simp only [counts, Table.entry_tabulate]
  decide +kernel

theorem witness_HistAccumOverflowIsReported : ∃ (s : State) (x : Byte), SrcInside s ∧
    2 ^ 64 - 1 < (s.freq.entry x).toNat + s.srcBytes.count x :=
  ⟨{ given 0 [0x00#8] 0 0 with freq := counts [(0x00#8, 0xFFFFFFFFFFFFFFFF#64)] }, 0,
    inside_of_le (by decide), by decide +kernel⟩

theorem witness_TableStoreStoresLengths : ∃ s : State, DstInside s ∧ s.tableValid = true ∧
    s.dstCap.toNat = 256 :=
  ⟨withAbra (given 0 [] 0x100 256), inside_of_le (by decide), rfl, rfl⟩

/-- Every symbol has length 8: the Kraft sum is exactly 1 (T-H8). -/
theorem kraft_all_eight :
    kraftSum (lengthsOfBytes (List.replicate 256 0x08#8)) = 2 ^ 255 := by
  have e : ∀ x : Byte, (lengthsOfBytes (List.replicate 256 0x08#8)).entry x = 0x08#8 := by
    intro x
    rw [lengthsOfBytes, Table.entry_tabulate, List.getD_eq_getElem?_getD,
      List.getElem?_replicate_of_lt x.isLt, Option.getD_some]
  simp only [kraftSum, codedSymbols, e]
  decide +kernel

/-- Every symbol but the last has length 8, and the last 7 (T-H8). -/
def oversub : List Byte := List.replicate 255 0x08#8 ++ [0x07#8]

theorem kraft_oversub : kraftSum (lengthsOfBytes oversub) = 2 ^ 255 + 2 ^ 247 := by
  have e : ∀ x : Byte, (lengthsOfBytes oversub).entry x = if x = 255#8 then 0x07#8 else 0x08#8 := by
    intro x
    have hx := x.isLt
    rw [lengthsOfBytes, Table.entry_tabulate, List.getD_eq_getElem?_getD, oversub]
    by_cases h : x.toNat < 255
    · rw [List.getElem?_append_left (by rwa [List.length_replicate]),
        List.getElem?_replicate_of_lt h, if_neg (by rintro rfl; exact absurd h (by decide))]
      rfl
    · have h2 : x = 255#8 := BitVec.eq_of_toNat_eq (by show x.toNat = 255; omega)
      subst h2
      decide +kernel
  simp only [kraftSum, codedSymbols, e]
  decide +kernel

theorem witness_TableLoadInstallsLengths : ∃ s : State, SrcInside s ∧ s.srcLen.toNat = 256 ∧
    admissible (lengthsOfBytes s.srcBytes) = true := by
  refine ⟨given 0 (List.replicate 256 0x08#8) 0 0, inside_of_le (by decide +kernel),
    by decide +kernel, ?_⟩
  rw [given_srcBytes 0 0 (by decide) (by decide +kernel), admissible, kraft_all_eight]
  decide +kernel

/-- The payload fills DST_CAP exactly (T-H1). -/
theorem abra_is_coded : ∀ x ∈ abra, abraLens.entry x ≠ 0 := by
  have h : ∀ x : Byte, x ∈ abra → x ∈ codedSymbols abraLens := by
    rw [abra_coded]; decide +kernel
  intro x hx
  simpa using (List.mem_filter.1 (h x hx)).2

theorem abra_bits : bitCount abraLens abra = 23 := by
  simp only [bitCount, abraLens, lens, Table.entry_tabulate]
  decide +kernel

theorem abra_srcBytes (d c : Nat) : (withAbra (given 0 abra d c)).srcBytes = abra :=
  given_srcBytes d c (by decide) (by decide)

/-- T-H1 with DST_CAP exact, and the last bit and the padding bit of its stream (R203, R204): its 23
bits end in the code 0 of "a". -/
theorem witness_EncodeStoresPayload : (∃ s : State,
    SrcInside s ∧ DstInside s ∧ RangesApart s ∧ s.tableValid = true ∧
    (∀ x ∈ s.srcBytes, s.len.entry x ≠ 0) ∧
    8 + ceilDiv (bitCount s.len s.srcBytes) 8 = s.dstCap.toNat ∧
    ∃ w, w = s.srcBytes.flatMap (codeString s.len s.code) ∧ w[22]? = some false ∧
      w.length ≤ 23 ∧ 23 < 8 * ceilDiv w.length 8) ∧
    3 < (abraLens.entry 0x64#8).toNat := by
  have h := ranges_legal (s := withAbra (given 0 abra 0x100 11)) (by decide +kernel)
  refine ⟨⟨_, h.1, h.2.1, h.2.2, rfl, ?_, ?_, _, rfl, ?_⟩, by decide +kernel⟩
  · rw [abra_srcBytes]; exact abra_is_coded
  · rw [abra_srcBytes]
    show 8 + ceilDiv (bitCount abraLens abra) 8 = 11
    rw [abra_bits]; decide
  · rw [abra_srcBytes]
    decide +kernel

/-- Clause by clause: an uncoded symbol with DST_CAP 0; a DST_CAP one byte short. -/
theorem witness_EncodeErrorsInOrder :
    (∃ s : State, SrcInside s ∧ DstInside s ∧ RangesApart s ∧ s.tableValid = true ∧
      ∃ x ∈ s.srcBytes, s.len.entry x = 0) ∧
    ∃ s : State, SrcInside s ∧ DstInside s ∧ RangesApart s ∧ s.tableValid = true ∧
      (∀ x ∈ s.srcBytes, s.len.entry x ≠ 0) ∧
      s.dstCap.toNat + 1 = 8 + ceilDiv (bitCount s.len s.srcBytes) 8 := by
  constructor
  · have h := ranges_legal (s := withAbra (given 0 [0x7A#8] 0x100 0)) (by decide +kernel)
    exact ⟨_, h.1, h.2.1, h.2.2, rfl, 0x7A#8, by decide +kernel, by decide +kernel⟩
  · have h := ranges_legal (s := withAbra (given 0 abra 0x100 10)) (by decide +kernel)
    refine ⟨_, h.1, h.2.1, h.2.2, rfl, ?_, ?_⟩
    · rw [abra_srcBytes]; exact abra_is_coded
    · rw [abra_srcBytes]
      show 10 + 1 = 8 + ceilDiv (bitCount abraLens abra) 8
      rw [abra_bits]; decide

/-- The declared count and DST_CAP are both 11; bit 23 is the last of the stream. -/
theorem witness_DecodeStoresSymbols : ∃ (s : State) (out : List Byte) (after : List Bool) (j : Nat),
    SrcInside s ∧ DstInside s ∧ RangesApart s ∧ s.tableValid = true ∧ 8 ≤ s.srcLen.toNat ∧
    s.payloadCount = s.dstCap.toNat ∧
    decodeSymbols (codeBook s.len s.code) s.payloadCount (payloadBits s.srcBytes) =
      .ok (out, after) ∧
    j = 8 * (s.srcLen.toNat - 8) - after.length ∧ 23 < 8 * (s.srcLen.toNat - 8) := by
  have h := ranges_legal (s := payloadState 0x0B#8 11) (by decide +kernel)
  refine ⟨_, abra, [false], 23, h.1, h.2.1, h.2.2, rfl, by decide, by decide +kernel, ?_,
    by decide, by decide⟩
  rw [show codeBook (payloadState 0x0B#8 11).len (payloadState 0x0B#8 11).code = _ from abra_book]
  decide +kernel

/-- One symbol declared, under the empty table (T-H6). -/
def emptyTableState : State :=
  (given 0 (leBytes 8 1) 0x100 1).setTable (lens []) (canonical (lens [])) true

/-- Clause by clause: 7 bytes; a count one above DST_CAP in a payload of 8 bytes; both match-step
errors, with the count equal to DST_CAP. -/
theorem witness_DecodeErrorsInOrder :
    (∃ s : State, SrcInside s ∧ DstInside s ∧ RangesApart s ∧ s.tableValid = true ∧
      s.srcLen.toNat = 7) ∧
    (∃ s : State, SrcInside s ∧ DstInside s ∧ RangesApart s ∧ s.tableValid = true ∧
      s.srcLen.toNat = 8 ∧ s.dstCap.toNat + 1 = s.payloadCount) ∧
    (∃ s : State, SrcInside s ∧ DstInside s ∧ RangesApart s ∧ s.tableValid = true ∧
      8 ≤ s.srcLen.toNat ∧ s.payloadCount = s.dstCap.toNat ∧
      decodeSymbols (codeBook s.len s.code) s.payloadCount (payloadBits s.srcBytes) =
        .error .bitsExhausted) ∧
    ∃ s : State, SrcInside s ∧ DstInside s ∧ RangesApart s ∧ s.tableValid = true ∧
      8 ≤ s.srcLen.toNat ∧ s.payloadCount = s.dstCap.toNat ∧
      decodeSymbols (codeBook s.len s.code) s.payloadCount (payloadBits s.srcBytes) =
        .error .noCode := by
  refine ⟨?_, ?_, ?_, ?_⟩
  · have h := ranges_legal (s := withAbra (given 0 (List.replicate 7 0#8) 0x100 0))
      (by decide +kernel)
    exact ⟨_, h.1, h.2.1, h.2.2, rfl, rfl⟩
  · have h := ranges_legal (s := withAbra (given 0 (leBytes 8 5) 0x100 4)) (by decide +kernel)
    exact ⟨_, h.1, h.2.1, h.2.2, rfl, rfl, by decide +kernel⟩
  · have h := ranges_legal (s := payloadState 0x0D#8 13) (by decide +kernel)
    refine ⟨_, h.1, h.2.1, h.2.2, rfl, by decide, by decide +kernel, ?_⟩
    rw [show codeBook (payloadState 0x0D#8 13).len (payloadState 0x0D#8 13).code = _
      from abra_book]
    decide +kernel
  · have h := ranges_legal (s := emptyTableState) (by decide +kernel)
    have e : codeBook (lens []) (canonical (lens [])) = [] := by
      simp only [codeBook, codedSymbols, lens, Table.entry_tabulate]
      decide +kernel
    refine ⟨_, h.1, h.2.1, h.2.2, rfl, by decide, by decide +kernel, ?_⟩
    rw [show codeBook emptyTableState.len emptyTableState.code = _ from e]
    decide +kernel

theorem witness_HdrPackStoresHeader : ∃ s : State, DstInside s ∧ s.dstCap.toNat = 9 :=
  ⟨given 0 [] 0x400 9, inside_of_le (by decide), rfl⟩

/-- A header with the bytes given, in a source range of `n` bytes. -/
def headerState (bs : List Byte) (n : Nat) : State :=
  { given 0x400 bs 0 0 with srcLen := BitVec.ofNat 32 n }

/-- The header of T-K1. -/
def goodHeader : List Byte :=
  [0x51#8, 0x43#8, 0x4D#8, 0x50#8, 0x01#8, 0x00#8, 0x01#8, 0x00#8, 0x00#8]

/-- T-K3: the table fills the rest of the source. -/
theorem witness_HdrParseReportsLengths : ∃ (s : State) (n : Nat), SrcInside s ∧
    9 ≤ s.srcLen.toNat ∧ s.readBytes s.srcAddr.toNat 4 = [0x51#8, 0x43#8, 0x4D#8, 0x50#8] ∧
    s.readByte (s.srcAddr.toNat + 4) = 0x01#8 ∧
    n = leNat (s.readBytes (s.srcAddr.toNat + 5) 4) ∧ n = s.srcLen.toNat - 9 :=
  ⟨headerState goodHeader 265, 256, inside_of_le (by decide), by decide, by decide +kernel,
    by decide +kernel, by decide +kernel, by decide⟩

theorem witness_HdrParseErrorsInOrder :
    (∃ s : State, SrcInside s ∧ s.srcLen.toNat = 8) ∧
    (∃ s : State, SrcInside s ∧ s.srcLen.toNat = 9 ∧
      s.readBytes s.srcAddr.toNat 4 ≠ [0x51#8, 0x43#8, 0x4D#8, 0x50#8]) ∧
    (∃ s : State, SrcInside s ∧ s.srcLen.toNat = 9 ∧
      s.readBytes s.srcAddr.toNat 4 = [0x51#8, 0x43#8, 0x4D#8, 0x50#8] ∧
      s.readByte (s.srcAddr.toNat + 4) ≠ 0x01#8) ∧
    ∃ s : State, SrcInside s ∧ 9 ≤ s.srcLen.toNat ∧
      s.readBytes s.srcAddr.toNat 4 = [0x51#8, 0x43#8, 0x4D#8, 0x50#8] ∧
      s.readByte (s.srcAddr.toNat + 4) = 0x01#8 ∧
      s.srcLen.toNat - 9 + 1 = leNat (s.readBytes (s.srcAddr.toNat + 5) 4) :=
  ⟨⟨headerState goodHeader 8, inside_of_le (by decide), rfl⟩,
    ⟨headerState (goodHeader.set 0 0xAE#8) 9, inside_of_le (by decide), rfl, by decide +kernel⟩,
    ⟨headerState (goodHeader.set 4 0x02#8) 9, inside_of_le (by decide), rfl, by decide +kernel,
      by decide +kernel⟩,
    ⟨headerState goodHeader 264, inside_of_le (by decide), by decide, by decide +kernel,
      by decide +kernel, by decide +kernel⟩⟩

/-- One failed command for each case of the error classes. -/
theorem witness_FailedCommandChangesOnlyNamedState :
    (∃ (i : Instr) (s t : State), exec i s = .next t ∧ t.errCode ≠ .none ∧
      scramblesDst i t.errDetail = true) ∧
    (∃ (i : Instr) (s t : State), exec i s = .next t ∧ t.errCode ≠ .none ∧
      scramblesDst i t.errDetail = false ∧ scramblesFreq i t.errDetail = false ∧
      scramblesCodes i t.errDetail = false) ∧
    (∃ (s t : State), exec .histAccum s = .next t ∧ t.errDetail = .freqOverflow) ∧
    ∃ (s t : State), exec .tableLoad s = .next t ∧ t.errDetail = .tableOversub ∧
      scramblesCodes .tableLoad t.errDetail = true := by
  refine ⟨?_, ?_, ?_, ?_⟩
  · have h : next (exec .encode (withAbra (given 0 [0x7A#8] 0x100 0))) (fun t =>
        decide (t.errCode ≠ .none) && scramblesDst .encode t.errDetail) = true := by
      show next (execEncode _) _ = _
      rw [execEncode, runCommand_append _ _ (operands_pass _ (by decide +kernel))]
      decide +kernel
    obtain ⟨t, e, p⟩ := next_exists h
    simp only [Bool.and_eq_true, decide_eq_true_eq] at p
    exact ⟨.encode, _, t, e, p⟩
  · have h : next (exec .tableStore (given 0 [] 0x100 256)) (fun t =>
        decide (t.errCode ≠ .none) && (!scramblesDst .tableStore t.errDetail &&
          (!scramblesFreq .tableStore t.errDetail && !scramblesCodes .tableStore t.errDetail))) =
        true := by
      show next (execTableStore _) _ = _
      rw [execTableStore, runCommand_append _ _ (operands_pass _ (by decide +kernel))]
      decide +kernel
    obtain ⟨t, e, p⟩ := next_exists h
    simp only [Bool.and_eq_true, decide_eq_true_eq, Bool.not_eq_true'] at p
    exact ⟨.tableStore, _, t, e, p⟩
  · refine ⟨{ given 0 [0x00#8] 0 0 with freq := counts [(0x00#8, 0xFFFFFFFFFFFFFFFF#64)] }, ?_⟩
    have h : next (exec .histAccum
        { given 0 [0x00#8] 0 0 with freq := counts [(0x00#8, 0xFFFFFFFFFFFFFFFF#64)] })
        (fun t => decide (t.errDetail = .freqOverflow)) = true := by
      show next (execHistAccum _) _ = _
      rw [execHistAccum, runCommand_operands _ (operands_pass _ (by decide +kernel))]
      decide +kernel
    obtain ⟨t, e, p⟩ := next_exists h
    exact ⟨t, e, of_decide_eq_true p⟩
  · refine ⟨given 0 oversub 0 0, ?_⟩
    have h : exec .tableLoad (given 0 oversub 0 0) = .next
        (Ended.complete (fail ((given 0 oversub 0 0).setTable (drawTable 8 1) (drawTable 255 1)
          false).useDraw (decompressionFailed .tableOversub))) := by
      show execTableLoad _ = _
      rw [execTableLoad, runCommand_append _ _ (operands_pass _ (by decide +kernel)),
        runCommand_passed _ (by decide +kernel), tableLoadBody,
        given_srcBytes 0 0 (by decide) (by decide +kernel), admissible, kraft_oversub]
      rfl
    exact ⟨_, h, rfl, rfl⟩

/-- One clause each, at the first address or length that fails. -/
theorem witness_OperandRangeErrorsInOrder :
    (∃ s : State, s.srcAddr.toNat + s.srcLen.toNat = Config.bufBytes + 1 ∧ ¬ SrcInside s ∧
      usesSrc .ampMap = true) ∧
    (∃ s : State, SrcInside s ∧ usesDst .ampMap = true ∧
      s.dstAddr.toNat + s.dstCap.toNat = Config.bufBytes + 1 ∧ ¬ DstInside s) ∧
    ∃ s : State, usesSrc .ampMap = true ∧ usesDst .ampMap = true ∧ SrcInside s ∧ DstInside s ∧
      s.dstAddr.toNat + 1 = s.srcAddr.toNat + s.srcLen.toNat ∧ ¬ RangesApart s := by
  have h := pastBuf_toNat
  have h1 : (1#32).toNat = 1 := rfl
  refine ⟨⟨{ State.reset with srcAddr := pastBuf, srcLen := 1#32 }, ?_, ?_, rfl⟩,
    ⟨{ State.reset with dstAddr := pastBuf, dstCap := 1#32 }, ?_, rfl, ?_, ?_⟩,
    ⟨given 0 [0#8, 0#8, 0#8, 0#8] 3 64, rfl, rfl, inside_of_le (by decide),
      inside_of_le (by decide), by decide, by decide⟩⟩
  · show pastBuf.toNat + (1#32).toNat = _
    omega
  · show ¬ pastBuf.toNat + (1#32).toNat ≤ Config.bufBytes
    omega
  · exact inside_of_le (by decide)
  · show pastBuf.toNat + (1#32).toNat = _
    omega
  · show ¬ pastBuf.toNat + (1#32).toNat ≤ Config.bufBytes
    omega

/-- Each DST_CAP is one short; the first length that is no multiple of 16. -/
theorem witness_CapacityErrorsChangeNothing :
    (∃ s : State, SrcInside s ∧ DstInside s ∧ RangesApart s ∧
      s.dstCap.toNat + 1 = 16 * s.srcLen.toNat) ∧
    (∃ s : State, SrcInside s ∧ DstInside s ∧ RangesApart s ∧ s.srcLen.toNat = 17) ∧
    (∃ s : State, SrcInside s ∧ DstInside s ∧ RangesApart s ∧ s.srcLen.toNat % 16 = 0 ∧
      s.dstCap.toNat + 1 = s.srcLen.toNat / 16) ∧
    (∃ s : State, DstInside s ∧ s.tableValid = true ∧ s.dstCap.toNat = 255) ∧
    ∃ s : State, DstInside s ∧ s.dstCap.toNat = 8 := by
  have ha := ranges_legal (s := given 0 [0x00#8, 0xFF#8] 0x100 31) (by decide +kernel)
  have hb := ranges_legal (s := given 0 (List.replicate 17 0#8) 0x100 2) (by decide +kernel)
  have hc := ranges_legal (s := given 0 (List.replicate 32 0#8) 0x100 1) (by decide +kernel)
  exact ⟨⟨_, ha.1, ha.2.1, ha.2.2, by decide⟩, ⟨_, hb.1, hb.2.1, hb.2.2, by decide⟩,
    ⟨_, hc.1, hc.2.1, hc.2.2, by decide, by decide⟩,
    ⟨withAbra (given 0 [] 0x100 255), inside_of_le (by decide), rfl, by decide⟩,
    ⟨given 0 [] 0x400 8, inside_of_le (by decide), by decide⟩⟩

theorem witness_CommandsWithoutTableFail : ∃ s : State, s.tableValid = false ∧ DstInside s ∧
    SrcInside s ∧ RangesApart s :=
  have h := ranges_legal (s := given 0 abra 0x100 11) (by decide +kernel)
  ⟨_, rfl, h.2.1, h.1, h.2.2⟩

/-- Each error in turn; the chain of T-T4 one byte longer than DST_CAP. -/
theorem witness_DecomposeParameterErrors :
    (∃ s : State, SrcInside s ∧ DstInside s ∧ RangesApart s ∧ s.maxRank = 0) ∧
    (∃ s : State, SrcInside s ∧ DstInside s ∧ RangesApart s ∧ s.maxRank ≠ 0 ∧ s.srcLen = 0) ∧
    (∃ s : State, SrcInside s ∧ DstInside s ∧ RangesApart s ∧ s.maxRank ≠ 0 ∧ s.srcLen ≠ 0) ∧
    ∃ (s : State) (d : List Nat × List CMat), SrcInside s ∧ DstInside s ∧ RangesApart s ∧
      s.maxRank ≠ 0 ∧ s.srcLen ≠ 0 ∧ paddedCount s.srcLen.toNat ≤ Config.workElems ∧
      d = decomposition s.maxRank.toNat s.eps s.srcBytes ∧
      s.dstCap.toNat + 1 = (chainBytes d.1 d.2).length := by
  have ha := ranges_legal (s := { State.reset with maxRank := 0 }) (by decide)
  have hb := ranges_legal (s := State.reset) (by decide)
  have hc := ranges_legal (s := given 0 [0x42#8] 0x100 32) (by decide)
  have hd := ranges_legal (s := given 0 [0x00#8, 0xFF#8] 0x100 47) (by decide +kernel)
  exact ⟨⟨_, ha.1, ha.2.1, ha.2.2, rfl⟩, ⟨_, hb.1, hb.2.1, hb.2.2, by decide, rfl⟩,
    ⟨_, hc.1, hc.2.1, hc.2.2, by decide, by decide⟩,
    ⟨_, _, hd.1, hd.2.1, hd.2.2, by decide, by decide,
      Nat.le_trans (by decide +kernel : _ ≤ 65536) workElems_ge, rfl, by decide +kernel⟩⟩

/-- 255 and 257 bytes; 256 bytes whose Kraft sum is 257/256 (T-H8). -/
theorem witness_TableLoadErrors :
    (∃ s : State, SrcInside s ∧ s.srcLen.toNat = 255) ∧
    (∃ s : State, SrcInside s ∧ s.srcLen.toNat = 257) ∧
    ∃ s : State, SrcInside s ∧ s.srcLen.toNat = 256 ∧
      2 ^ 255 < kraftSum (lengthsOfBytes s.srcBytes) := by
  refine ⟨⟨{ State.reset with srcLen := 255#32 }, inside_of_le (by decide), by decide⟩,
    ⟨{ State.reset with srcLen := 257#32 }, inside_of_le (by decide), by decide⟩,
    ⟨given 0 oversub 0 0, inside_of_le (by decide +kernel), by decide +kernel, ?_⟩⟩
  rw [given_srcBytes 0 0 (by decide) (by decide +kernel), kraft_oversub]
  decide +kernel

/-- Each parse error; a chain that parses (its WORK_LIMIT clause needs no more), with ORIG_LEN one above the padded length; DST_CAP one below ORIG_LEN. -/
theorem witness_ChainErrorsChangeNothing :
    (∃ s : State, SrcInside s ∧ parseChain s.srcBytes = .error .chainTruncated) ∧
    (∃ s : State, SrcInside s ∧ parseChain s.srcBytes = .error .chainShape) ∧
    (∃ s : State, SrcInside s ∧ DstInside s ∧ RangesApart s ∧
      parseChain s.srcBytes = .error .physDim) ∧
    (∃ (s : State) (c : Chain), SrcInside s ∧ DstInside s ∧ RangesApart s ∧
      parseChain s.srcBytes = .ok c ∧ c.padded ≤ Config.workElems ∧ c.padded + 1 = s.origLen) ∧
    ∃ (s : State) (c : Chain), SrcInside s ∧ DstInside s ∧ RangesApart s ∧
      parseChain s.srcBytes = .ok c ∧ c.padded ≤ Config.workElems ∧ s.origLen = c.padded ∧
      s.dstCap.toNat + 1 = s.origLen := by
  have bytes : ∀ {a : Nat} {bs : List Byte} (d c n : Nat), a < 2 ^ 32 → bs.length < 2 ^ 32 →
      ((given a bs d c).setOrigLen n).srcBytes = bs :=
    fun d c n ha hb => (readBytes_congr rfl rfl _ _).trans (given_srcBytes d c ha hb)
  have w := workElems_ge
  obtain ⟨c, hc, h2⟩ := chainT1_parses
  refine ⟨⟨given 0x100 (chainT1.set 8 0x03#8) 0 0, inside_of_le (by decide), ?_⟩,
    ⟨given 0x100 (chainT1.set 0 0x00#8) 0 0, inside_of_le (by decide), ?_⟩, ?_, ?_, ?_⟩
  · rw [given_srcBytes 0 0 (by decide) (by decide)]; decide +kernel
  · rw [given_srcBytes 0 0 (by decide) (by decide)]; decide +kernel
  · have h := ranges_legal (s := given 0x100 (chainT1.set 4 0x01#8) 0x200 2) (by decide +kernel)
    refine ⟨_, h.1, h.2.1, h.2.2, ?_⟩
    rw [given_srcBytes 0x200 2 (by decide) (by decide)]; decide +kernel
  · have h := ranges_legal (s := (given 0x100 chainT1 0x200 16).setOrigLen 3) (by decide +kernel)
    exact ⟨_, c, h.1, h.2.1, h.2.2, by rw [bytes _ _ _ (by decide) (by decide)]; exact hc,
      by omega, by rw [h2]; rfl⟩
  · have h := ranges_legal (s := (given 0x100 chainT1 0x200 1).setOrigLen 2) (by decide +kernel)
    exact ⟨_, c, h.1, h.2.1, h.2.2, by rw [bytes _ _ _ (by decide) (by decide)]; exact hc,
      by omega, by rw [h2]; rfl, rfl⟩

/-- The first of two tensors, and the first eight of nine with a last one: legal shapes, all bonds 1. -/
def firstTensor : CMat := ⟨256, 1, List.replicate 256 czero⟩

def nineTensors : List CMat := List.replicate 8 firstTensor ++ [⟨1, 1, [czero]⟩]

theorem legal_first : LegalTensors 2 [1] [firstTensor] :=
  ⟨by decide, by decide, by decide, by decide +kernel, by decide +kernel⟩

theorem legal_nine : LegalTensors nineTensors.length (List.replicate 8 1) nineTensors :=
  ⟨by decide, by decide, by decide, by decide +kernel, by decide +kernel⟩

/-- Each field at the first value that fails, with the bytes there that its clause asks for; bonds 0 and
257; a header of 7 bytes, 2 columns, and 15 bytes of one entry after a legal tensor; N_p at 2^64. -/
theorem witness_ChainHeaderChecksInOrder :
    ((List.replicate 7 0#8).length < 8 ∧
    (8 ≤ (chainT1.set 0 0#8).length ∧ leNat ((chainT1.set 0 0#8).take 4) = 0) ∧
    (8 ≤ (chainT1.set 4 1#8).length ∧ leNat ((chainT1.set 4 1#8).take 4) ≠ 0 ∧
      leNat (((chainT1.set 4 1#8).drop 4).take 4) = 257) ∧
    (let src := (chainT1.set 0 2#8).take 11
     8 ≤ src.length ∧ leNat (src.take 4) ≠ 0 ∧ leNat ((src.drop 4).take 4) = 256 ∧
      src.length - 8 + 1 = 4 * (leNat (src.take 4) - 1)) ∧
    (let src := leBytes 4 3 ++ leBytes 4 256 ++ leBytes 4 257 ++ leBytes 4 0
     leNat (src.take 4) = 3 ∧ leNat ((src.drop 4).take 4) = 256 ∧
      8 + 4 * (leNat (src.take 4) - 1) = src.length ∧
      leNat ((src.drop (8 + 4 * 0)).take 4) = 257 ∧ leNat ((src.drop (8 + 4 * 1)).take 4) = 0)) ∧
    (LegalTensors 2 [1] [firstTensor] ∧ [firstTensor].length < 2 ∧
      (List.replicate 7 0#8).length < 8 ∧
      (let rest := leBytes 4 1 ++ leBytes 4 2
       8 ≤ rest.length ∧
        legalShape 2 [1] 1 (leNat (rest.take 4)) (leNat ((rest.drop 4).take 4)) = false) ∧
      (let rest := leBytes 4 1 ++ leBytes 4 1 ++ List.replicate 15 0#8
       8 ≤ rest.length ∧
        legalShape 2 [1] 1 (leNat (rest.take 4)) (leNat ((rest.drop 4).take 4)) = true ∧
        rest.length - 8 + 1 = 16 * leNat (rest.take 4) * leNat ((rest.drop 4).take 4))) ∧
    (LegalTensors nineTensors.length (List.replicate 8 1) nineTensors ∧
      paddedLength (List.replicate 8 1) nineTensors = 2 ^ 64) ∧
    (LegalTensors 1 [] [⟨1, 1, [czero]⟩] ∧ paddedLength [] [⟨1, 1, [czero]⟩] < 2 ^ 64) ∧
    ∃ c, parseChain chainT1 = .ok c :=
  ⟨by decide +kernel, ⟨legal_first, by decide, by decide, by decide +kernel, by decide +kernel⟩,
    ⟨legal_nine, by decide +kernel⟩,
    ⟨⟨by decide, by decide, by decide, by decide +kernel, by decide +kernel⟩, by decide +kernel⟩,
    chainT1_parses.imp fun _ h => h.1⟩

/-- 1/3, and the tie 2^53 + 1 between 2^53 and 2^53 + 2 (in units of 2^-1074). -/
theorem witness_RoundingIsToNearestEven :
    (0 < 3 ∧ F64.roundMag (2 ^ 1074) 3 < F64.infMag ∧ F64.isNaN 0x3FD5555555555556#64 = false ∧
      F64.isInf 0x3FD5555555555556#64 = false ∧ F64.sign 0x3FD5555555555556#64 = false) ∧
    (F64.roundMag (2 ^ 53 + 1) 1 < F64.infMag ∧ F64.isNaN 0x0020000000000001#64 = false ∧
      F64.isInf 0x0020000000000001#64 = false ∧ F64.sign 0x0020000000000001#64 = false ∧
      ((F64.units (F64.pack false (F64.roundMag (2 ^ 53 + 1) 1)) * 1 : Int) -
          (2 ^ 53 + 1 : Nat)).natAbs =
        ((F64.units 0x0020000000000001#64 * 1 : Int) - (2 ^ 53 + 1 : Nat)).natAbs ∧
      (0x0020000000000001#64 : F64) ≠ F64.pack false (F64.roundMag (2 ^ 53 + 1) 1)) := by
  decide +kernel

/-- The least magnitude that rounds to infinity, and the one below it (IEEE 754, R10). -/
theorem test_rounding_overflows :
    F64.roundMag ((2 ^ 53 - 1) * 2 ^ 2045 + 2 ^ 2044) 1 = F64.infMag ∧
    F64.roundMag ((2 ^ 53 - 1) * 2 ^ 2045 + 2 ^ 2044 - 1) 1 = F64.infMag - 1 := by
  decide +kernel

/-- Clause by clause: a NaN, the infinities, and a finite product that is a tie, 0.5. -/
theorem witness_UnampUndoesAmp :
    (∃ z : C64, F64.isNaN (F64.mul z.re F64.c255) = true) ∧
    (∃ z : C64, F64.isInf (F64.mul z.re F64.c255) = true ∧
      F64.sign (F64.mul z.re F64.c255) = false) ∧
    (∃ z : C64, F64.isInf (F64.mul z.re F64.c255) = true ∧
      F64.sign (F64.mul z.re F64.c255) = true) ∧
    ∃ z : C64, F64.isNaN (F64.mul z.re F64.c255) = false ∧
      F64.isInf (F64.mul z.re F64.c255) = false ∧
      F64.signedUnits (F64.mul z.re F64.c255) * 2 = 2 ^ 1074 :=
  ⟨⟨⟨0x7FF8000000000000#64, 0⟩, by
      rw [F64.mul, if_pos (by decide +kernel)]; exact F64.isNaN_nan _ _ _⟩,
    ⟨⟨0x7FF0000000000000#64, 0⟩, by decide +kernel⟩,
    ⟨⟨0xFFF0000000000000#64, 0⟩, by decide +kernel⟩,
    ⟨⟨0x3F60101010101010#64, 0⟩, by decide +kernel⟩⟩

/-- The lengths at which the step count changes (R155). -/
theorem witness_PaddedLengthIsLeast :
    (stepCount 1 = 0 ∧ stepCount 255 = 0) ∧ (stepCount 256 = 1 ∧ stepCount 65280 = 1) ∧
    (stepCount 65281 = 2 ∧ stepCount 16711680 = 2) ∧
    (stepCount 16711681 = 3 ∧ stepCount 4278190080 = 3) := by decide +kernel

/-- MAX_RANK 1, a 1 by 1 matrix, and the one bond of a 256-byte input. -/
theorem witness_BondDimensionsAreBounded :
    1 ≤ 1 ∧ 1 ≤ (CMat.mk 1 1 [czero]).rows ∧ 1 ≤ (CMat.mk 1 1 [czero]).cols ∧
    ∃ b, b ∈ (decomposition 1 0 (List.replicate 256 0#8)).1 := by
  refine ⟨Nat.le_refl _, Nat.le_refl _, Nat.le_refl _, ?_⟩
  have h : stepCount (List.replicate 256 0#8).length = 1 := by decide +kernel
  rw [decomposition, h]
  exact ⟨_, List.mem_cons_self⟩

theorem witness_SerializedChainSize :
    [CMat.mk 256 1 (List.replicate 256 czero), CMat.mk 1 1 [czero]] ≠ [] ∧
    [1].length = [CMat.mk 256 1 (List.replicate 256 czero), CMat.mk 1 1 [czero]].length - 1 ∧
    ∀ x ∈ [CMat.mk 256 1 (List.replicate 256 czero), CMat.mk 1 1 [czero]],
      x.entries.length = x.rows * x.cols := by decide +kernel

theorem witness_DecomposedChainParsesBack : ∃ (src rest : List Byte) (d : List Nat × List CMat),
    src ≠ [] ∧ src.length < 2 ^ 32 ∧ d = decomposition 64 0 src ∧ rest ≠ [] :=
  ⟨[0x42#8], [0xEE#8], _, by decide, by decide, rfl, by decide⟩

/-- The largest input that fits any BUF with its chain, and the least; the bytes are put back over the
source range. -/
theorem witness_ShortInputsRoundTripExactly :
    (∃ s : State, SrcInside s ∧ DstInside s ∧ RangesApart s ∧ s.maxRank ≠ 0 ∧
      s.srcLen.toNat = 240 ∧ 16 + 16 * s.srcLen.toNat = s.dstCap.toNat) ∧
    ∃ s : State, SrcInside s ∧ DstInside s ∧ RangesApart s ∧ s.maxRank ≠ 0 ∧
      s.srcLen.toNat = 1 ∧ 16 + 16 * s.srcLen.toNat = s.dstCap.toNat ∧
      ∀ t u : State, u = { t with
          srcAddr := s.dstAddr, srcLen := t.resultLen, dstAddr := 0#32, dstCap := 1#32 } →
        DstInside u ∧ RangesApart u ∧ s.srcLen.toNat ≤ (1#32).toNat := by
  have ha := ranges_legal (s := given 0 (List.replicate 240 0#8) 240 3856) (by decide +kernel)
  have hb := ranges_legal (s := given 0 [0x42#8] 0x100 32) (by decide)
  refine ⟨⟨_, ha.1, ha.2.1, ha.2.2, by decide, by decide +kernel, by decide +kernel⟩,
    ⟨_, hb.1, hb.2.1, hb.2.2, by decide, by decide, by decide, ?_⟩⟩
  rintro t u rfl
  exact ⟨inside_of_le (a := 0) (n := 1) (by decide),
    .inr (.inr (.inl (show 0 + 1 ≤ 0x100 by decide))), by decide⟩

/-- A histogram with four symbols, one with one, and one with none. -/
theorem witness_BuiltTableKraftSum :
    2 ≤ (presentSymbols tieState.freq).length ∧
    (presentSymbols (counts [(0x42#8, 1000#64)])).length = 1 ∧
    (presentSymbols (counts [])).length = 0 := by
  rw [tie_present]
  simp only [presentSymbols, counts, Table.entry_tabulate]
  decide +kernel

theorem abra_kraft : kraftSum abraLens = 2 ^ 255 := by
  rw [kraftSum, abra_coded]
  decide +kernel

theorem witness_CanonicalCodesArePrefixFree : admissible abraLens = true ∧
    abraLens.entry 0x61 ≠ 0 ∧
    codeString abraLens (canonical abraLens) 0x61 <+: codeString abraLens (canonical abraLens) 0x61 :=
  ⟨by rw [admissible, abra_kraft]; decide +kernel, by decide +kernel, List.prefix_refl _⟩

/-- The table of T-H1 is valid. -/
theorem abra_invariant : TableInvariant abraLens abraCodes where
  fits := by
    simp only [abraLens, lens, abraCodes, Table.entry_tabulate]
    decide +kernel
  uncoded := by
    simp only [abraLens, lens, abraCodes, Table.entry_tabulate]
    decide +kernel
  kraft := Nat.le_of_eq abra_kraft
  prefixFree := by
    have h : ∀ x, abraLens.entry x ≠ 0 → x ∈ [0x61#8, 0x62#8, 0x63#8, 0x64#8, 0x72#8] := by
      intro x hx
      rw [← abra_coded]
      exact List.mem_filter.2 ⟨mem_symbols x, by simpa using hx⟩
    have k : ∀ x ∈ [0x61#8, 0x62#8, 0x63#8, 0x64#8, 0x72#8],
        ∀ y ∈ [0x61#8, 0x62#8, 0x63#8, 0x64#8, 0x72#8],
        codeString abraLens abraCodes x <+: codeString abraLens abraCodes y → x = y := by
      decide +kernel
    exact fun x y hx hy => k x (h x hx) y (h y hy)
  canonical := abra_canonical.symm

/-- The last clauses of DecodeErrorsInOrder: one symbol read under a valid table; and a stream that ends
after twelve coded symbols of the thirteen declared. -/
theorem witness_DecodeErrorsInOrder_stream :
    (∃ (x : Byte) (bits : List Bool), abraLens.entry x ≠ 0 ∧
      codeString abraLens abraCodes x <+: bits ∧
      ∀ y, abraLens.entry y ≠ 0 → codeString abraLens abraCodes y <+: bits → y = x) ∧
    ∃ (s : State) (xs : List Byte), SrcInside s ∧ DstInside s ∧ RangesApart s ∧
      s.tableValid = true ∧ TableInvariant s.len s.code ∧ 8 ≤ s.srcLen.toNat ∧
      s.payloadCount = s.dstCap.toNat ∧ xs.length + 1 = s.payloadCount ∧
      (∀ x ∈ xs, s.len.entry x ≠ 0) ∧
      payloadBits s.srcBytes = xs.flatMap (codeString s.len s.code) ++ [] ∧
      matchStep (codeBook s.len s.code) [] [] = .error .bitsExhausted := by
  have d : abraLens.entry 0x64#8 ≠ 0 := by decide +kernel
  refine ⟨⟨0x64#8, codeString abraLens abraCodes 0x64#8, d, List.prefix_refl _,
    fun y hy hp => abra_invariant.prefixFree y 0x64#8 hy d hp⟩, ?_⟩
  have h := ranges_legal (s := payloadState 0x0D#8 13) (by decide +kernel)
  refine ⟨_, abra ++ [0x61#8], h.1, h.2.1, h.2.2, rfl, abra_invariant, by decide, by decide +kernel,
    by decide +kernel, ?_, by decide +kernel, ?_⟩
  · show ∀ x ∈ abra ++ [0x61#8], abraLens.entry x ≠ 0
    decide +kernel
  · rw [show codeBook (payloadState 0x0D#8 13).len (payloadState 0x0D#8 13).code = _
      from abra_book]
    decide +kernel

theorem witness_StoredTableLoadsBack : ∃ s : State, TableInvariant s.len s.code ∧
    s.tableValid = true ∧ DstInside s ∧ s.dstCap.toNat = 256 :=
  ⟨withAbra (given 0 [] 0x100 256), abra_invariant, rfl, inside_of_le (by decide), rfl⟩

/-- The payload fills DST_CAP exactly; it is decoded over the source range. -/
theorem witness_EncodedBytesDecodeBack : ∃ s : State, SrcInside s ∧ DstInside s ∧ RangesApart s ∧
    s.tableValid = true ∧ TableInvariant s.len s.code ∧
    (∀ x ∈ s.srcBytes, s.len.entry x ≠ 0) ∧
    8 + ceilDiv (bitCount s.len s.srcBytes) 8 = s.dstCap.toNat ∧
    ∀ t u : State, u = { t with
        srcAddr := s.dstAddr, srcLen := t.resultLen, dstAddr := 0#32, dstCap := 11#32 } →
      DstInside u ∧ RangesApart u ∧ s.srcLen.toNat = (11#32).toNat := by
  have h := ranges_legal (s := withAbra (given 0 abra 0x100 11)) (by decide +kernel)
  refine ⟨_, h.1, h.2.1, h.2.2, rfl, abra_invariant, ?_, ?_, ?_⟩
  · rw [abra_srcBytes]; exact abra_is_coded
  · rw [abra_srcBytes]
    show 8 + ceilDiv (bitCount abraLens abra) 8 = 11
    rw [abra_bits]; decide
  · rintro t u rfl
    exact ⟨inside_of_le (a := 0) (n := 11) (by decide),
      .inr (.inr (.inl (show 0 + 11 ≤ 0x100 by decide))), by decide⟩

/-- A state with a listed byte, and its step. -/
theorem witness_StepKeepsMemoryInvariant : ∃ s t : State, MemoryInvariant s ∧ s.buf ≠ [] ∧
    step s = .next t := by
  refine ⟨(given 0 [0x42#8] 0 0).issue 0#32, _, ⟨by decide, ?_⟩, by decide, rfl⟩
  intro c hc
  obtain rfl : c = (0, 0x42#8) := List.mem_singleton.1 hc
  exact Nat.lt_of_lt_of_le (by decide : 0 < 4096) bufBytes_ge

theorem witness_StepKeepsTablesInvariant : ∃ s t : State, TablesInvariant s ∧
    s.tableValid = true ∧ step s = .next t :=
  ⟨withAbra (State.reset.issue 0#32), _, fun _ => abra_invariant, rfl, rfl⟩

theorem witness_StepKeepsStatusInvariant : ∃ s t : State, StatusInvariant s ∧
    s.engine = .busy 0#32 ∧ step s = .next t := by
  refine ⟨State.reset.issue 0#32, _, ⟨rfl, ?_, rfl, fun h => absurd rfl h⟩, rfl, rfl⟩
  intro w h
  cases h
  exact ⟨rfl, rfl, rfl, rfl⟩

end Sys2Proof.Tests
end

section
/-! # Rounding to nearest, ties to even (00_scope.md R10)

A binary64 magnitude pattern is `e * 2^52 + q` for a shift `e` and a significand `q < 2^53` (with
`2^52 ≤ q` unless `e = 0`), and its value is `q * 2^e` units. `F64.roundMag` picks one of two
consecutive patterns, whose values enclose the exact magnitude. -/

namespace Sys2Proof.Machine.F64

/-! ## The value of a magnitude pattern -/

/-- The units of the magnitude bits 62:0, as `units` reads them. -/
def magUnits (m : Nat) : Nat :=
  if m / 2 ^ 52 = 0 then m % 2 ^ 52 else (2 ^ 52 + m % 2 ^ 52) * 2 ^ (m / 2 ^ 52 - 1)

theorem toNat_lt_of_sign_eq_false {x : F64} (h : sign x = false) : x.toNat < 2 ^ 63 := by
  have hmsb : x.msb = false := h
  exact BitVec.toNat_lt_of_msb_false hmsb

theorem units_eq_magUnits {x : F64} (h : sign x = false) : units x = magUnits x.toNat := by
  have hx := toNat_lt_of_sign_eq_false h
  have hexp : expField x = x.toNat / 2 ^ 52 := by
    rw [expField, BitVec.extractLsb'_toNat, Nat.shiftRight_eq_div_pow]
    omega
  have hfrac : fracField x = x.toNat % 2 ^ 52 := by
    rw [fracField, BitVec.extractLsb'_toNat, Nat.shiftRight_zero]
  rw [units, magUnits, hexp, hfrac]

theorem toNat_pack_false {m : Nat} (h : m < 2 ^ 63) : (pack false m).toNat = m := by
  rw [pack, BitVec.toNat_ofNat, if_neg Bool.false_ne_true, Nat.zero_add]
  omega

theorem sign_pack_false {m : Nat} (h : m < 2 ^ 63) : sign (pack false m) = false := by
  have hmsb : (pack false m).msb = false := by
    rw [BitVec.msb_eq_false_iff_two_mul_lt, toNat_pack_false h]
    omega
  exact hmsb

theorem units_pack_false {m : Nat} (h : m < 2 ^ 63) : units (pack false m) = magUnits m := by
  rw [units_eq_magUnits (sign_pack_false h), toNat_pack_false h]

/-- The significand may be `2^53`: then the carry has moved into the exponent field. -/
theorem magUnits_shift_add {e q : Nat} (hq : q ≤ 2 ^ 53) (he : e = 0 ∨ 2 ^ 52 ≤ q) :
    magUnits (e * 2 ^ 52 + q) = q * 2 ^ e := by
  unfold magUnits
  rcases Nat.lt_or_ge q (2 ^ 52) with hsub | hnorm
  · obtain rfl : e = 0 := by omega
    rw [if_pos (by omega)]
    omega
  rcases Nat.lt_or_eq_of_le hq with hlt | rfl
  · have hdiv : (e * 2 ^ 52 + q) / 2 ^ 52 = e + 1 := by omega
    have hmod : 2 ^ 52 + (e * 2 ^ 52 + q) % 2 ^ 52 = q := by omega
    rw [hdiv, if_neg (Nat.succ_ne_zero e), hmod, Nat.add_sub_cancel]
  · have hdiv : (e * 2 ^ 52 + 2 ^ 53) / 2 ^ 52 = e + 2 := by omega
    have hmod : (e * 2 ^ 52 + 2 ^ 53) % 2 ^ 52 = 0 := by omega
    rw [hdiv, if_neg (by omega), hmod, show e + 2 - 1 = e + 1 by omega, Nat.pow_succ]
    omega

theorem exists_shift_add (m : Nat) :
    ∃ e q, m = e * 2 ^ 52 + q ∧ q < 2 ^ 53 ∧ (e = 0 ∨ 2 ^ 52 ≤ q) := by
  rcases Nat.lt_or_ge m (2 ^ 53) with hlt | hge
  · exact ⟨0, m, by omega, hlt, .inl rfl⟩
  · exact ⟨m / 2 ^ 52 - 1, 2 ^ 52 + m % 2 ^ 52, by omega, by omega, .inr (by omega)⟩

theorem magUnits_strictMono : StrictMono magUnits := by
  refine strictMono_nat_of_lt_succ fun m => ?_
  obtain ⟨e, q, rfl, hq, he⟩ := exists_shift_add m
  rw [Nat.add_assoc, magUnits_shift_add hq.le he, magUnits_shift_add hq (by omega)]
  exact Nat.mul_lt_mul_of_pos_right q.lt_succ_self (Nat.two_pow_pos e)

/-! ## The nearest integer quotient -/

/-- `n / d` to the nearest integer, the even one of two equally near. -/
def nearestQuot (n d : Nat) : Nat :=
  if decide (d < 2 * (n % d)) || (decide (2 * (n % d) = d) && decide (n / d % 2 = 1))
  then n / d + 1 else n / d

theorem nearestQuot_cases (n d : Nat) :
    (nearestQuot n d = n / d ∧ 2 * (n % d) ≤ d ∧ (2 * (n % d) = d → n / d % 2 = 0)) ∨
    (nearestQuot n d = n / d + 1 ∧ d ≤ 2 * (n % d) ∧ (2 * (n % d) = d → n / d % 2 = 1)) := by
  unfold nearestQuot
  split
  next h =>
    simp only [Bool.or_eq_true, Bool.and_eq_true, decide_eq_true_eq] at h
    exact .inr ⟨rfl, by omega, by omega⟩
  next h =>
    simp only [Bool.or_eq_true, Bool.and_eq_true, decide_eq_true_eq] at h
    exact .inl ⟨rfl, by omega, by omega⟩

/-- No `v` outside the two multiples of `d` around `n` is nearer to `n` than the chosen one; when
another is as near, `n` is half way and the chosen quotient is even. -/
theorem nearestQuot_nearest {n d v : Nat} (hd : 0 < d)
    (hv : v ≤ d * (n / d) ∨ d * (n / d + 1) ≤ v) :
    ((d * nearestQuot n d : Nat) - n : Int).natAbs ≤ ((v : Int) - n).natAbs ∧
    (((d * nearestQuot n d : Nat) - n : Int).natAbs = ((v : Int) - n).natAbs →
      v ≠ d * nearestQuot n d → nearestQuot n d % 2 = 0) := by
  have hn : d * (n / d) + n % d = n := Nat.div_add_mod n d
  have hr : n % d < d := Nat.mod_lt n hd
  rw [Nat.mul_succ] at hv
  rcases nearestQuot_cases n d with ⟨heq, hhalf, htie⟩ | ⟨heq, hhalf, htie⟩
  · rw [heq]
    generalize d * (n / d) = below at hn hv ⊢
    exact ⟨by omega, by omega⟩
  · rw [heq, Nat.mul_succ]
    generalize d * (n / d) = below at hn hv ⊢
    exact ⟨by omega, by omega⟩

/-! ## The two patterns around a magnitude -/

/-- The bits that the quotient has beyond 53. -/
def excess (num den : Nat) : Nat := (num / den).log2 - 52

theorem roundMag_eq (num den : Nat) : roundMag num den =
    min (excess num den * 2 ^ 52 + nearestQuot num (den * 2 ^ excess num den)) infMag := rfl

theorem roundMag_eq_of_lt {num den : Nat} (h : roundMag num den < infMag) : roundMag num den =
    excess num den * 2 ^ 52 + nearestQuot num (den * 2 ^ excess num den) :=
  (min_choice _ _).resolve_right h.ne

theorem quot_lt (num den : Nat) : num / (den * 2 ^ excess num den) < 2 ^ 53 := by
  rw [← Nat.div_div_eq_div_mul, Nat.div_lt_iff_lt_mul (Nat.two_pow_pos _), ← Nat.pow_add]
  calc num / den < 2 ^ ((num / den).log2 + 1) := Nat.lt_log2_self
    _ ≤ 2 ^ (53 + excess num den) := Nat.pow_le_pow_right (by decide) (by unfold excess; omega)

theorem excess_eq_zero_or_le_quot (num den : Nat) :
    excess num den = 0 ∨ 2 ^ 52 ≤ num / (den * 2 ^ excess num den) := by
  refine Classical.or_iff_not_imp_left.2 fun h => ?_
  have hlog : 52 + excess num den = (num / den).log2 := by unfold excess at h ⊢; omega
  have hne : num / den ≠ 0 := by
    intro h0
    rw [h0, Nat.log2_zero] at hlog
    omega
  rw [← Nat.div_div_eq_div_mul, Nat.le_div_iff_mul_le (Nat.two_pow_pos _), ← Nat.pow_add, hlog]
  exact Nat.log2_self_le hne

theorem nearestQuot_le (num den : Nat) :
    nearestQuot num (den * 2 ^ excess num den) ≤ 2 ^ 53 := by
  have := quot_lt num den
  rcases nearestQuot_cases num (den * 2 ^ excess num den) with ⟨heq, -⟩ | ⟨heq, -⟩ <;> omega

theorem excess_eq_zero_or_le_nearestQuot (num den : Nat) :
    excess num den = 0 ∨ 2 ^ 52 ≤ nearestQuot num (den * 2 ^ excess num den) := by
  have := excess_eq_zero_or_le_quot num den
  rcases nearestQuot_cases num (den * 2 ^ excess num den) with ⟨heq, -⟩ | ⟨heq, -⟩ <;> omega

/-- No pattern has a value strictly between the two around the magnitude. -/
theorem magUnits_mul_outside (num den m : Nat) :
    magUnits m * den ≤
      den * 2 ^ excess num den * (num / (den * 2 ^ excess num den)) ∨
    den * 2 ^ excess num den * (num / (den * 2 ^ excess num den) + 1) ≤ magUnits m * den := by
  have hlt := quot_lt num den
  have hge := excess_eq_zero_or_le_quot num den
  generalize num / (den * 2 ^ excess num den) = q at hlt hge ⊢
  generalize excess num den = e at hge ⊢
  have below := magUnits_shift_add hlt.le hge
  have above := magUnits_shift_add (q := q + 1) hlt (hge.imp_right Nat.le_succ_of_le)
  rcases Nat.lt_or_ge (e * 2 ^ 52 + q) m with hm | hm
  · right
    calc den * 2 ^ e * (q + 1) = (q + 1) * 2 ^ e * den := by ring
      _ ≤ magUnits m * den := Nat.mul_le_mul_right _ (above ▸ magUnits_strictMono.monotone hm)
  · left
    calc magUnits m * den ≤ q * 2 ^ e * den :=
          Nat.mul_le_mul_right _ (below ▸ magUnits_strictMono.monotone hm)
      _ = den * 2 ^ e * q := by ring

theorem magUnits_roundMag_mul {num den : Nat} (h : roundMag num den < infMag) :
    magUnits (roundMag num den) * den =
      den * 2 ^ excess num den * nearestQuot num (den * 2 ^ excess num den) := by
  rw [roundMag_eq_of_lt h, magUnits_shift_add (nearestQuot_le num den)
    (excess_eq_zero_or_le_nearestQuot num den)]
  ring

theorem roundMag_mod_two {num den : Nat} (h : roundMag num den < infMag) :
    roundMag num den % 2 = nearestQuot num (den * 2 ^ excess num den) % 2 := by
  rw [roundMag_eq_of_lt h]
  omega

theorem roundMag_nearest {num den : Nat} (hden : 0 < den) (h : roundMag num den < infMag)
    (m : Nat) :
    ((magUnits (roundMag num den) * den : Nat) - num : Int).natAbs ≤
      ((magUnits m * den : Nat) - num : Int).natAbs ∧
    (((magUnits (roundMag num den) * den : Nat) - num : Int).natAbs =
      ((magUnits m * den : Nat) - num : Int).natAbs →
      m ≠ roundMag num den → roundMag num den % 2 = 0) := by
  obtain ⟨hle, htie⟩ := nearestQuot_nearest (Nat.mul_pos hden (Nat.two_pow_pos _))
    (magUnits_mul_outside num den m)
  rw [← magUnits_roundMag_mul h] at hle htie
  refine ⟨hle, fun heq hne => ?_⟩
  rw [roundMag_mod_two h]
  exact htie heq fun hv =>
    hne (magUnits_strictMono.injective (Nat.eq_of_mul_eq_mul_right hden hv))

/-! ## Overflow -/

/-- Only the shift 2045 is undecided by the size of the significand alone: below it every pattern is
finite, above it none is. -/
theorem infMag_le_iff {e q : Nat} (hq : q ≤ 2 ^ 53) (he : e = 0 ∨ 2 ^ 52 ≤ q) :
    infMag ≤ e * 2 ^ 52 + q ↔ 2045 < e ∨ (e = 2045 ∧ q = 2 ^ 53) := by
  unfold infMag
  omega

/-- With an odd quotient `q` the greatest possible, rounding goes past it exactly from the half way
point on. -/
theorem nearestQuot_eq_succ_iff {n d q : Nat} (hd : 0 < d) (hodd : q % 2 = 1) (hle : n / d ≤ q) :
    nearestQuot n d = q + 1 ↔ (2 * q + 1) * d ≤ 2 * n := by
  have hn : d * (n / d) + n % d = n := Nat.div_add_mod n d
  have hr : n % d < d := Nat.mod_lt n hd
  have hexp : (2 * q + 1) * d = 2 * (d * q) + d := by ring
  rw [hexp]
  rcases Nat.lt_or_eq_of_le hle with hsmall | hlast
  · have hmul : d * (n / d + 1) ≤ d * q := Nat.mul_le_mul_left d hsmall
    rw [Nat.mul_succ] at hmul
    rcases nearestQuot_cases n d with ⟨heq, -⟩ | ⟨heq, -⟩ <;> omega
  · rw [hlast] at hn
    rcases nearestQuot_cases n d with ⟨heq, hhalf, htie⟩ | ⟨heq, hhalf, htie⟩ <;> omega

/-- The magnitude and the bound of overflow compared, for a largest value `(2^53 - 1) * 2^top`. -/
theorem overflow_bound_le_iff {num den k top : Nat} (hden : 0 < den) (htop : top = k + 1) :
    ((2 ^ 53 - 1) * 2 ^ top + 2 ^ k) * den ≤ num ↔
      top < excess num den ∨
      (excess num den = top ∧ nearestQuot num (den * 2 ^ excess num den) = 2 ^ 53) := by
  have hdouble : den * 2 ^ top = 2 * (den * 2 ^ k) := by rw [htop, Nat.pow_succ]; ring
  have hbound : ((2 ^ 53 - 1) * 2 ^ top + 2 ^ k) * den = (2 ^ 54 - 1) * (den * 2 ^ k) := by
    rw [htop, Nat.pow_succ]
    ring
  have hpos : 0 < den * 2 ^ k := Nat.mul_pos hden (Nat.two_pow_pos k)
  have hdpos : 0 < den * 2 ^ excess num den := Nat.mul_pos hden (Nat.two_pow_pos _)
  have hlt := quot_lt num den
  rw [hbound]
  rcases Nat.lt_trichotomy (excess num den) top with hless | heq | hmore
  · have hnum := (Nat.div_lt_iff_lt_mul hdpos).1 hlt
    have hd : den * 2 ^ excess num den ≤ den * 2 ^ k :=
      Nat.mul_le_mul_left den (Nat.pow_le_pow_right (by decide) (by omega))
    omega
  · have hhalf := nearestQuot_eq_succ_iff (q := 2 ^ 53 - 1) hdpos (by decide)
      (Nat.le_of_lt_succ hlt)
    rw [heq, hdouble] at hhalf ⊢
    omega
  · have hnum := (Nat.le_div_iff_mul_le hdpos).1
      ((excess_eq_zero_or_le_quot num den).resolve_left (by omega))
    have hd : den * 2 ^ (top + 1) ≤ den * 2 ^ excess num den :=
      Nat.mul_le_mul_left den (Nat.pow_le_pow_right (by decide) hmore)
    rw [Nat.pow_succ, ← Nat.mul_assoc, hdouble] at hd
    omega

theorem roundMag_le_infMag (num den : Nat) : roundMag num den ≤ infMag := min_le_right _ _

theorem roundMag_eq_infMag_iff {num den : Nat} (hden : 0 < den) :
    roundMag num den = infMag ↔ ((2 ^ 53 - 1) * 2 ^ 2045 + 2 ^ 2044) * den ≤ num := by
  rw [roundMag_eq, min_eq_right_iff,
    infMag_le_iff (nearestQuot_le num den) (excess_eq_zero_or_le_nearestQuot num den)]
  exact (overflow_bound_le_iff (k := 2044) (top := 2045) hden rfl).symm

/-- Settles O46: the exact magnitude lies between the values of two consecutive patterns, of which
`roundMag` takes the nearer, and the values grow with the patterns; the upper pattern is infinity's
exactly from the half way point above the largest finite value on. -/
theorem roundingIsToNearestEven : Obligations.RoundingIsToNearestEven := by
  refine ⟨fun num den hden => ⟨roundMag_le_infMag num den, roundMag_eq_infMag_iff hden⟩, ?_⟩
  intro num den x hden hfin _ _ hsign
  have hmag : roundMag num den < 2 ^ 63 := by unfold infMag at hfin; omega
  obtain ⟨hle, htie⟩ := roundMag_nearest hden hfin x.toNat
  rw [units_pack_false hmag, units_eq_magUnits hsign]
  refine ⟨by exact_mod_cast hle, fun heq hne => htie (by exact_mod_cast heq) fun hx => hne ?_⟩
  rw [← hx, pack, if_neg Bool.false_ne_true, Nat.zero_add, BitVec.ofNat_toNat, BitVec.setWidth_eq]

end Sys2Proof.Machine.F64
end

section
/-! # No canonical code begins another (43_huffman.md R199, R200)

Code `c` of length `n` stands for the interval from `c * 2^(255 - n)` to `(c + 1) * 2^(255 - n)`: the
255-bit strings that begin with it. The canonical codes fill consecutive intervals from 0 on, so
they end at the Kraft sum; and a code that begins another has an interval that meets the other's. -/

namespace Sys2Proof.Machine

/-! ## Symbols -/

theorem symbols_nodup : symbols.Nodup := by
  refine List.Nodup.map_on (fun i hi j hj h => ?_) List.nodup_range
  rw [List.mem_range] at hi hj
  have hnat := congrArg BitVec.toNat h
  rwa [BitVec.toNat_ofNat, BitVec.toNat_ofNat, Nat.mod_eq_of_lt hi, Nat.mod_eq_of_lt hj] at hnat

@[simp] theorem mem_codedSymbols {l : Table (BitVec 8)} {s : Byte} :
    s ∈ codedSymbols l ↔ l.entry s ≠ 0 := by
  simp only [codedSymbols, List.mem_filter, mem_symbols, true_and, bne_iff_ne]

theorem entry_le_maxCodeLen (l : Table (BitVec 8)) (s : Byte) : (l.entry s).toNat ≤ 255 :=
  Nat.le_of_lt_succ (l.entry s).isLt

/-! ## The canonical order -/

theorem canonicalOrder_perm (l : Table (BitVec 8)) :
    (canonicalOrder l).Perm (codedSymbols l) := List.perm_insertionSort _ _

/-- The lengths do not fall along the canonical order. -/
theorem canonicalOrder_lengths_sorted (l : Table (BitVec 8)) :
    (canonicalOrder l).Pairwise fun s t => (l.entry s).toNat ≤ (l.entry t).toNat := by
  have : Std.Total (codesBefore l) := ⟨fun s t => by unfold codesBefore; omega⟩
  have : IsTrans Byte (codesBefore l) := ⟨fun s t u => by unfold codesBefore; omega⟩
  refine (List.pairwise_insertionSort (codesBefore l) (codedSymbols l)).imp fun {s t} h => ?_
  unfold codesBefore at h
  omega

/-! ## The intervals of the codes -/

/-- What one code of symbol `s` takes of the Kraft sum, in units of `2^-255`. -/
def codeWeight (l : Table (BitVec 8)) (s : Byte) : Nat := 2 ^ (255 - (l.entry s).toNat)

/-- Where the interval of a code begins. -/
def intervalStart (l : Table (BitVec 8)) (p : Byte × Nat) : Nat := p.2 * codeWeight l p.1

/-- Where the interval of a code ends. -/
def intervalEnd (l : Table (BitVec 8)) (p : Byte × Nat) : Nat := (p.2 + 1) * codeWeight l p.1

/-- One interval ends before the other begins. -/
def IntervalsApart (l : Table (BitVec 8)) (p q : Byte × Nat) : Prop :=
  intervalEnd l p ≤ intervalStart l q ∨ intervalEnd l q ≤ intervalStart l p

theorem kraftSum_eq_sum_codeWeight (l : Table (BitVec 8)) :
    kraftSum l = ((codedSymbols l).map (codeWeight l)).sum := rfl

theorem intervalStart_lt_intervalEnd (l : Table (BitVec 8)) (p : Byte × Nat) :
    intervalStart l p < intervalEnd l p :=
  Nat.mul_lt_mul_of_pos_right p.2.lt_succ_self (Nat.two_pow_pos _)

/-- The next code begins where the code before it ends: the shift that lengthens a code leaves its
interval. -/
theorem shiftLeft_mul_codeWeight {l : Table (BitVec 8)} {prev : Nat} {s : Byte} (code : Nat)
    (h : prev ≤ (l.entry s).toNat) :
    code <<< ((l.entry s).toNat - prev) * codeWeight l s = code * 2 ^ (255 - prev) := by
  have hs := entry_le_maxCodeLen l s
  rw [codeWeight, Nat.shiftLeft_eq, Nat.mul_assoc, ← Nat.pow_add]
  congr 2
  omega

theorem codesFrom_map_fst (l : Table (BitVec 8)) (code prev : Nat) (ss : List Byte) :
    (codesFrom l code prev ss).map Prod.fst = ss := by
  induction ss generalizing code prev with
  | nil => rfl
  | cons s ss ih => rw [codesFrom, List.map_cons, ih]

/-- The intervals of the codes after a first one lie between its end and that end plus their
weights. -/
theorem codesFrom_bounds {l : Table (BitVec 8)} {ss : List Byte} {code prev : Nat}
    (hsorted : ss.Pairwise fun s t => (l.entry s).toNat ≤ (l.entry t).toNat)
    (hprev : ∀ s ∈ ss, prev ≤ (l.entry s).toNat) {p : Byte × Nat}
    (hp : p ∈ codesFrom l code prev ss) :
    (code + 1) * 2 ^ (255 - prev) ≤ intervalStart l p ∧
      intervalEnd l p ≤ (code + 1) * 2 ^ (255 - prev) + (ss.map (codeWeight l)).sum := by
  induction ss generalizing code prev with
  | nil => cases hp
  | cons s ss ih =>
    obtain ⟨hfirst, hrest⟩ := List.pairwise_cons.1 hsorted
    have hstart := shiftLeft_mul_codeWeight (code + 1) (hprev s List.mem_cons_self)
    rw [List.map_cons, List.sum_cons]
    rcases List.mem_cons.1 hp with rfl | hp
    · simp only [intervalStart, intervalEnd, Nat.add_mul, Nat.one_mul] at hstart ⊢
      omega
    · have hlater := ih hrest hfirst hp
      rw [Nat.add_mul, ← codeWeight, hstart] at hlater
      omega

/-- The intervals of the codes stand in the order of the codes and do not meet. -/
theorem codesFrom_intervals_disjoint {l : Table (BitVec 8)} {ss : List Byte} {code prev : Nat}
    (hsorted : ss.Pairwise fun s t => (l.entry s).toNat ≤ (l.entry t).toNat) :
    (codesFrom l code prev ss).Pairwise fun p q => intervalEnd l p ≤ intervalStart l q := by
  induction ss generalizing code prev with
  | nil => exact List.Pairwise.nil
  | cons s ss ih =>
    obtain ⟨hfirst, hrest⟩ := List.pairwise_cons.1 hsorted
    exact List.pairwise_cons.2 ⟨fun q hq => (codesFrom_bounds hrest hfirst hq).1, ih hrest⟩

theorem canonicalCodes_map_fst (l : Table (BitVec 8)) :
    (canonicalCodes l).map Prod.fst = canonicalOrder l := by
  unfold canonicalCodes
  split
  · exact (‹canonicalOrder l = []›).symm
  · rename_i s ss hss
    rw [hss, List.map_cons, codesFrom_map_fst]

theorem mem_canonicalCodes_map_fst {l : Table (BitVec 8)} {s : Byte} :
    s ∈ (canonicalCodes l).map Prod.fst ↔ l.entry s ≠ 0 := by
  rw [canonicalCodes_map_fst, (canonicalOrder_perm l).mem_iff, mem_codedSymbols]

theorem canonicalCodes_intervals_disjoint (l : Table (BitVec 8)) :
    (canonicalCodes l).Pairwise fun p q => intervalEnd l p ≤ intervalStart l q := by
  have hsorted := canonicalOrder_lengths_sorted l
  unfold canonicalCodes
  split
  · exact List.Pairwise.nil
  · rename_i s ss hss
    rw [hss] at hsorted
    obtain ⟨hfirst, hrest⟩ := List.pairwise_cons.1 hsorted
    exact List.pairwise_cons.2
      ⟨fun q hq => (codesFrom_bounds hrest hfirst hq).1, codesFrom_intervals_disjoint hrest⟩

theorem canonicalCodes_intervalEnd_le {l : Table (BitVec 8)} {p : Byte × Nat}
    (hp : p ∈ canonicalCodes l) : intervalEnd l p ≤ kraftSum l := by
  have hsum := ((canonicalOrder_perm l).map (codeWeight l)).sum_eq
  have hsorted := canonicalOrder_lengths_sorted l
  rw [kraftSum_eq_sum_codeWeight, ← hsum]
  unfold canonicalCodes at hp
  split at hp
  · cases hp
  · rename_i s ss hss
    rw [hss] at hsorted ⊢
    obtain ⟨hfirst, hrest⟩ := List.pairwise_cons.1 hsorted
    rw [List.map_cons, List.sum_cons]
    rcases List.mem_cons.1 hp with rfl | hp
    · rw [intervalEnd, Nat.zero_add, Nat.one_mul]
      exact Nat.le_add_right _ _
    · have hlater := (codesFrom_bounds hrest hfirst hp).2
      rwa [Nat.zero_add, Nat.one_mul] at hlater

/-- Two canonical codes whose intervals meet are one code. -/
theorem canonicalCodes_eq_of_intervals_meet {l : Table (BitVec 8)} {p q : Byte × Nat}
    (hp : p ∈ canonicalCodes l) (hq : q ∈ canonicalCodes l)
    (hpq : intervalStart l p < intervalEnd l q) (hqp : intervalStart l q < intervalEnd l p) :
    p = q := by
  have : Std.Symm (IntervalsApart l) := ⟨fun _ _ => Or.symm⟩
  have hpairwise : (canonicalCodes l).Pairwise (IntervalsApart l) :=
    (canonicalCodes_intervals_disjoint l).imp Or.inl
  by_contra hne
  rcases hpairwise.forall hp hq hne with hapart | hapart <;> omega

/-- A canonical code of an admissible length array fits its length (R200). -/
theorem canonicalCodes_fits {l : Table (BitVec 8)} (hl : kraftSum l ≤ 2 ^ 255) {s : Byte} {c : Nat}
    (hp : (s, c) ∈ canonicalCodes l) : c < 2 ^ (l.entry s).toNat := by
  have hend := (canonicalCodes_intervalEnd_le hp).trans hl
  have hpow : 2 ^ (l.entry s).toNat * codeWeight l s = 2 ^ 255 := by
    rw [codeWeight, ← Nat.pow_add, Nat.add_sub_cancel' (entry_le_maxCodeLen l s)]
  rw [← hpow] at hend
  exact Nat.le_of_mul_le_mul_right hend (Nat.two_pow_pos _)

/-! ## The entries of CODE -/

theorem canonical_entry_of_uncoded {l : Table (BitVec 8)} {s : Byte} (hs : l.entry s = 0) :
    (canonical l).entry s = 0 := by
  have hnone : (canonicalCodes l).lookup s = none := by
    refine List.lookup_eq_none_iff.2 fun p hp => bne_iff_ne.2 ?_
    rintro rfl
    exact mem_canonicalCodes_map_fst.1 (List.mem_map_of_mem hp) hs
  simp only [canonical, Table.entry_tabulate, hnone, Option.getD_none]
  rfl

/-- The entry of a coded symbol is its canonical code; no bit is lost. -/
theorem canonical_entry_mem {l : Table (BitVec 8)} (hl : kraftSum l ≤ 2 ^ 255) {s : Byte}
    (hs : l.entry s ≠ 0) : (s, ((canonical l).entry s).toNat) ∈ canonicalCodes l := by
  obtain ⟨c, hc⟩ : ∃ c, (canonicalCodes l).lookup s = some c := by
    obtain ⟨p, hp, rfl⟩ := List.mem_map.1 (mem_canonicalCodes_map_fst.2 hs)
    exact Option.isSome_iff_exists.1 (List.lookup_isSome_iff.2 ⟨p, hp, beq_self_eq_true _⟩)
  have hin : (s, c) ∈ canonicalCodes l := by
    obtain ⟨before, after, hsplit, -⟩ := List.lookup_eq_some_iff.1 hc
    rw [hsplit]
    exact List.mem_append_right _ List.mem_cons_self
  have hlt : c < 2 ^ 255 := (canonicalCodes_fits hl hin).trans_le
    (Nat.pow_le_pow_right (by decide) (entry_le_maxCodeLen l s))
  have hentry : ((canonical l).entry s).toNat = c := by
    rw [canonical, Table.entry_tabulate, hc, Option.getD_some, BitVec.toNat_ofNat,
      Nat.mod_eq_of_lt hlt]
  rwa [hentry]

theorem canonical_fits {l : Table (BitVec 8)} (hl : kraftSum l ≤ 2 ^ 255) (s : Byte) :
    ((canonical l).entry s).toNat < 2 ^ (l.entry s).toNat := by
  by_cases hs : l.entry s = 0
  · rw [canonical_entry_of_uncoded hs, hs]
    decide
  · exact canonicalCodes_fits hl (canonical_entry_mem hl hs)

/-! ## Codes that begin others -/

/-- A bit string that begins another holds its upper bits. -/
theorem toNat_eq_shiftRight_of_bitsMsb_prefix {c d : BitVec 255} {m n : Nat} (hc : c.toNat < 2 ^ m)
    (hd : d.toNat < 2 ^ n) (h : bitsMsb c m <+: bitsMsb d n) :
    m ≤ n ∧ c.toNat = d.toNat >>> (n - m) := by
  have hmn : m ≤ n := by simpa only [bitsMsb_length] using h.length_le
  refine ⟨hmn, Nat.eq_of_testBit_eq fun i => ?_⟩
  rw [Nat.testBit_shiftRight]
  rcases Nat.lt_or_ge i m with hi | hi
  · have hbit := h.getElem (i := m - 1 - i) (by rw [bitsMsb_length]; omega)
    simp only [bitsMsb, List.getElem_map, List.getElem_range, BitVec.getLsbD] at hbit
    rwa [show m - 1 - (m - 1 - i) = i by omega,
      show n - 1 - (m - 1 - i) = n - m + i by omega] at hbit
  · rw [Nat.testBit_lt_two_pow (hc.trans_le (Nat.pow_le_pow_right (by decide) hi)),
      Nat.testBit_lt_two_pow (hd.trans_le (Nat.pow_le_pow_right (by decide) (by omega)))]

/-- The interval of a code begins in the interval of each code that has its upper bits. -/
theorem intervalStart_within_of_shiftRight {l : Table (BitVec 8)} {s t : Byte} {c d : Nat}
    (hlen : (l.entry s).toNat ≤ (l.entry t).toNat)
    (hc : c = d >>> ((l.entry t).toNat - (l.entry s).toNat)) :
    intervalStart l (s, c) ≤ intervalStart l (t, d) ∧
      intervalStart l (t, d) < intervalEnd l (s, c) := by
  have hs := entry_le_maxCodeLen l t
  have hw : codeWeight l s = 2 ^ ((l.entry t).toNat - (l.entry s).toNat) * codeWeight l t := by
    rw [codeWeight, codeWeight, ← Nat.pow_add]
    congr 1
    omega
  have hpos := Nat.two_pow_pos ((l.entry t).toNat - (l.entry s).toNat)
  have hdiv := Nat.div_add_mod d (2 ^ ((l.entry t).toNat - (l.entry s).toNat))
  have hmod := Nat.mod_lt d hpos
  rw [Nat.shiftRight_eq_div_pow] at hc
  rw [← hc] at hdiv
  simp only [intervalStart, intervalEnd, hw, ← Nat.mul_assoc]
  refine ⟨Nat.mul_le_mul_right _ ?_, Nat.mul_lt_mul_of_pos_right ?_ (Nat.two_pow_pos _)⟩
  · rw [Nat.mul_comm]; omega
  · rw [Nat.add_mul, Nat.mul_comm c]; omega

theorem canonical_prefixFree {l : Table (BitVec 8)} (hl : kraftSum l ≤ 2 ^ 255) {s t : Byte}
    (hs : l.entry s ≠ 0) (ht : l.entry t ≠ 0)
    (h : codeString l (canonical l) s <+: codeString l (canonical l) t) : s = t := by
  obtain ⟨hlen, hupper⟩ :=
    toNat_eq_shiftRight_of_bitsMsb_prefix (canonical_fits hl s) (canonical_fits hl t) h
  obtain ⟨hle, hlt⟩ := intervalStart_within_of_shiftRight hlen hupper
  have hsame := canonicalCodes_eq_of_intervals_meet (canonical_entry_mem hl hs)
    (canonical_entry_mem hl ht) (hle.trans_lt (intervalStart_lt_intervalEnd l _)) hlt
  exact congrArg Prod.fst hsame

/-- Canonical codes of an admissible length array are a valid table (10_state.md R49). -/
theorem tableInvariant_canonical {l : Table (BitVec 8)} (hl : kraftSum l ≤ 2 ^ 255) :
    TableInvariant l (canonical l) where
  fits := canonical_fits hl
  uncoded _ := canonical_entry_of_uncoded
  kraft := hl
  prefixFree _ _ := canonical_prefixFree hl
  canonical := rfl

end Sys2Proof.Machine
end

section
/-! # The Kraft sum of built tables (43_huffman.md R193, R194, R201)

The merges of R194 keep the leaves of the queue, so the leaves of the tree are the present symbols,
each once. In a tree whose leaves are distinct the weights `2^(n - depth)` of the leaves add up to
`2^n`, and 256 leaves lie at depth 255 at most, which LEN holds. -/

namespace Sys2Proof.Machine

/-! ## Trees -/

/-- The symbols at the leaves, from left to right. -/
def HTree.leaves : HTree → List Byte
  | .leaf s => [s]
  | .node l r => l.leaves ++ r.leaves

theorem HTree.leaves_length_pos (t : HTree) : 0 < t.leaves.length := by
  induction t with
  | leaf s => exact Nat.one_pos
  | node l r ihl ihr =>
    rw [leaves, List.length_append]
    omega

theorem HTree.depthOf_eq_none_iff {t : HTree} {s : Byte} : t.depthOf s = none ↔ s ∉ t.leaves := by
  induction t with
  | leaf u =>
    rw [depthOf, leaves, List.mem_singleton, eq_comm (a := s)]
    split <;> simp_all
  | node l r ihl ihr =>
    rw [leaves, List.mem_append, not_or, ← ihl, ← ihr, depthOf]
    cases l.depthOf s <;> simp

/-- A leaf at depth `d` has a leaf beside each of the `d` nodes above it. -/
theorem HTree.depthOf_lt_leaves_length {t : HTree} {s : Byte} {d : Nat} (h : t.depthOf s = some d) :
    d < t.leaves.length := by
  induction t generalizing d with
  | leaf u =>
    rw [depthOf, Option.ite_none_right_eq_some, Option.some.injEq] at h
    rw [← h.2]
    exact leaves_length_pos _
  | node l r ihl ihr =>
    have hl := l.leaves_length_pos
    have hr := r.leaves_length_pos
    rw [leaves, List.length_append]
    rw [depthOf] at h
    split at h
    · rename_i e he
      have := ihl he
      cases h
      omega
    · obtain ⟨e, he, rfl⟩ := Option.map_eq_some_iff.1 h
      have := ihr he
      omega

/-- The depth of a leaf. -/
def HTree.depth (t : HTree) (s : Byte) : Nat := (t.depthOf s).getD 0

theorem HTree.depth_lt_leaves_length (t : HTree) (s : Byte) : t.depth s < t.leaves.length := by
  unfold depth
  cases h : t.depthOf s with
  | none => exact t.leaves_length_pos
  | some d => exact depthOf_lt_leaves_length h

theorem HTree.depth_node_left {l r : HTree} {s : Byte} (h : s ∈ l.leaves) :
    (node l r).depth s = l.depth s + 1 := by
  obtain ⟨d, hd⟩ := Option.ne_none_iff_exists'.1 (mt depthOf_eq_none_iff.1 (not_not_intro h))
  simp only [depth, depthOf, hd, Option.getD_some]

theorem HTree.depth_node_right {l r : HTree} {s : Byte} (hl : s ∉ l.leaves) (hr : s ∈ r.leaves) :
    (node l r).depth s = r.depth s + 1 := by
  obtain ⟨d, hd⟩ := Option.ne_none_iff_exists'.1 (mt depthOf_eq_none_iff.1 (not_not_intro hr))
  simp only [depth, depthOf, depthOf_eq_none_iff.2 hl, hd, Option.map_some, Option.getD_some]

/-- The weights of the leaves of a tree add up to the weight of its root. -/
theorem HTree.sum_leaf_weights {t : HTree} {n : Nat} (hdistinct : t.leaves.Nodup)
    (hn : t.leaves.length ≤ n + 1) : (t.leaves.map fun s => 2 ^ (n - t.depth s)).sum = 2 ^ n := by
  induction t generalizing n with
  | leaf s => simp [leaves, depth, depthOf]
  | node l r ihl ihr =>
    have hlpos := l.leaves_length_pos
    have hrpos := r.leaves_length_pos
    rw [leaves, List.length_append] at hn
    obtain ⟨hl, hr, hdisjoint⟩ := List.nodup_append'.1 hdistinct
    obtain ⟨m, rfl⟩ := Nat.exists_eq_add_of_lt (show 0 < n by omega)
    have hleft : (l.leaves.map fun s => 2 ^ (0 + m + 1 - (node l r).depth s)) =
        l.leaves.map fun s => 2 ^ (m - l.depth s) :=
      List.map_congr_left fun s hs => by rw [depth_node_left hs, Nat.add_sub_add_right, Nat.zero_add]
    have hright : (r.leaves.map fun s => 2 ^ (0 + m + 1 - (node l r).depth s)) =
        r.leaves.map fun s => 2 ^ (m - r.depth s) :=
      List.map_congr_left fun s hs => by
        rw [depth_node_right (fun hl => hdisjoint hl hs) hs, Nat.add_sub_add_right, Nat.zero_add]
    rw [leaves, List.map_append, List.sum_append, hleft, hright, ihl hl (by omega),
      ihr hr (by omega), Nat.zero_add, Nat.pow_succ, Nat.mul_two]

/-! ## The queue -/

/-- The symbols at the leaves of the trees in the queue. -/
def queueLeaves (q : List HNode) : List Byte := q.flatMap fun x => x.tree.leaves

theorem pushNode_perm (x : HNode) (q : List HNode) : (pushNode x q).Perm (x :: q) := by
  induction q with
  | nil => exact List.Perm.refl _
  | cons y ys ih =>
    unfold pushNode
    split
    · exact List.Perm.refl _
    · exact (ih.cons y).trans (List.Perm.swap x y ys)

theorem queueLeaves_perm_of_perm {p q : List HNode} (h : p.Perm q) :
    (queueLeaves p).Perm (queueLeaves q) := h.flatMap_right _

/-- Every merge keeps the leaves. -/
theorem mergeNodes_leaves_perm (fuel : Nat) (q : List HNode) :
    (queueLeaves (mergeNodes fuel q)).Perm (queueLeaves q) := by
  induction fuel, q using mergeNodes.induct with
  | case1 fuel x y q ih =>
    rw [mergeNodes]
    refine ih.trans ((queueLeaves_perm_of_perm (pushNode_perm _ _)).trans (List.Perm.of_eq ?_))
    simp only [queueLeaves, List.flatMap_cons, parentNode, HTree.leaves, List.append_assoc]
  | case2 fuel q hshort => rw [mergeNodes]; exact hshort

/-- With fuel for every node but one, one node is left. -/
theorem mergeNodes_length_le_one {fuel : Nat} {q : List HNode} (h : q.length ≤ fuel + 1) :
    (mergeNodes fuel q).length ≤ 1 := by
  induction fuel generalizing q with
  | zero => exact h
  | succ fuel ih =>
    match q with
    | [] => exact Nat.zero_le 1
    | [x] => exact Nat.le_refl 1
    | x :: y :: q =>
      refine ih ?_
      rw [(pushNode_perm _ _).length_eq]
      exact Nat.le_of_succ_le_succ h

theorem leafQueue_leaves_perm (f : Table (BitVec 64)) :
    (queueLeaves (leafQueue f)).Perm (presentSymbols f) := by
  unfold leafQueue
  induction presentSymbols f with
  | nil => exact List.Perm.refl _
  | cons s ss ih =>
    exact (queueLeaves_perm_of_perm (pushNode_perm _ _)).trans (ih.cons s)

/-- The leaves of the tree are the present symbols. -/
theorem exists_huffmanRoot {f : Table (BitVec 64)} (h : presentSymbols f ≠ []) :
    ∃ t, huffmanRoot f = some t ∧ t.leaves.Perm (presentSymbols f) := by
  have hperm := (mergeNodes_leaves_perm (leafQueue f).length _).trans (leafQueue_leaves_perm f)
  have hlen := mergeNodes_length_le_one (Nat.le_succ (leafQueue f).length)
  unfold huffmanRoot
  match hq : mergeNodes (leafQueue f).length (leafQueue f) with
  | [] =>
    rw [hq] at hperm
    exact absurd (List.nil_perm.1 hperm) h
  | [x] =>
    rw [hq] at hperm
    refine ⟨x.tree, rfl, ?_⟩
    simpa only [queueLeaves, List.flatMap_singleton] using hperm
  | x :: y :: q =>
    rw [hq] at hlen
    simp at hlen

/-! ## The lengths -/

theorem mem_presentSymbols {f : Table (BitVec 64)} {s : Byte} :
    s ∈ presentSymbols f ↔ f.entry s ≠ 0 := by
  simp only [presentSymbols, List.mem_filter, mem_symbols, true_and, bne_iff_ne]

theorem presentSymbols_nodup (f : Table (BitVec 64)) : (presentSymbols f).Nodup :=
  symbols_nodup.filter _

theorem presentSymbols_length_le (f : Table (BitVec 64)) : (presentSymbols f).length ≤ 256 :=
  (List.length_filter_le _ _).trans_eq symbols_length

theorem codedSymbols_eq_presentSymbols {l : Table (BitVec 8)} {f : Table (BitVec 64)}
    (h : ∀ s, l.entry s ≠ 0 ↔ f.entry s ≠ 0) : codedSymbols l = presentSymbols f := by
  refine List.filter_congr fun s _ => ?_
  rw [Bool.eq_iff_iff, bne_iff_ne, bne_iff_ne]
  exact h s

/-- With two or more present symbols, each has a leaf below the root, and its depth is its length:
LEN holds it. -/
theorem exists_buildLengths_tree {f : Table (BitVec 64)} (h : 2 ≤ (presentSymbols f).length) :
    ∃ t : HTree, t.leaves.Perm (presentSymbols f) ∧
      ∀ s ∈ presentSymbols f, 0 < t.depth s ∧ ((buildLengths f).entry s).toNat = t.depth s := by
  obtain ⟨t, hroot, hperm⟩ := exists_huffmanRoot (List.ne_nil_of_length_pos (Nat.zero_lt_of_lt h))
  refine ⟨t, hperm, fun s hs => ⟨?_, ?_⟩⟩
  · have hmem := hperm.mem_iff.2 hs
    have hlen := hperm.length_eq
    cases t with
    | leaf u => rw [HTree.leaves, List.length_singleton] at hlen; omega
    | node l r =>
      by_cases hl : s ∈ l.leaves
      · rw [HTree.depth_node_left hl]; exact Nat.succ_pos _
      · rw [HTree.depth_node_right hl ((List.mem_append.1 hmem).resolve_left hl)]
        exact Nat.succ_pos _
  · have hdepth := t.depth_lt_leaves_length s
    have hle := presentSymbols_length_le f
    rw [hperm.length_eq] at hdepth
    rw [buildLengths, Table.entry_tabulate, if_neg (mem_presentSymbols.1 hs), hroot,
      Option.bind_some, BitVec.toNat_ofNat]
    exact Nat.mod_eq_of_lt (hdepth.trans_le hle)

theorem kraftSum_buildLengths {f : Table (BitVec 64)} (h : 2 ≤ (presentSymbols f).length) :
    kraftSum (buildLengths f) = 2 ^ 255 := by
  obtain ⟨t, hperm, hdepth⟩ := exists_buildLengths_tree h
  have hcoded : codedSymbols (buildLengths f) = presentSymbols f := by
    refine codedSymbols_eq_presentSymbols fun s => ⟨fun hs hf => hs ?_, fun hf hs => ?_⟩
    · rw [buildLengths, Table.entry_tabulate, if_pos hf]
    · obtain ⟨hpos, heq⟩ := hdepth s (mem_presentSymbols.2 hf)
      rw [hs] at heq
      exact hpos.ne heq
  have hweights : (presentSymbols f).map (codeWeight (buildLengths f)) =
      (presentSymbols f).map fun s => 2 ^ (255 - t.depth s) :=
    List.map_congr_left fun s hs => by rw [codeWeight, (hdepth s hs).2]
  have hle := presentSymbols_length_le f
  rw [kraftSum_eq_sum_codeWeight, hcoded, hweights, ← (hperm.map _).sum_eq]
  exact HTree.sum_leaf_weights (hperm.nodup_iff.2 (presentSymbols_nodup f)) (hperm.length_eq ▸ hle)

/-- The one present symbol has a code of one bit. -/
theorem kraftSum_tableLengths_of_one {f : Table (BitVec 64)} (h : (presentSymbols f).length = 1) :
    kraftSum (tableLengths f) = 2 ^ 254 := by
  have hentry (s : Byte) : (tableLengths f).entry s = if f.entry s = 0 then 0 else 1 := by
    simp only [tableLengths, h, Table.entry_tabulate]
  have hcoded : codedSymbols (tableLengths f) = presentSymbols f :=
    codedSymbols_eq_presentSymbols fun s => by
      rw [hentry]
      split <;> simp_all
  obtain ⟨s, hs⟩ := List.length_eq_one_iff.1 h
  have hpresent : f.entry s ≠ 0 := mem_presentSymbols.1 (hs ▸ List.mem_singleton_self s)
  rw [kraftSum_eq_sum_codeWeight, hcoded, hs, List.map_singleton, List.sum_singleton, codeWeight,
    hentry, if_neg hpresent]
  rfl

theorem kraftSum_tableLengths_of_none {f : Table (BitVec 64)} (h : (presentSymbols f).length = 0) :
    kraftSum (tableLengths f) = 0 := by
  have hcoded : codedSymbols (tableLengths f) = [] := by
    refine List.filter_eq_nil_iff.2 fun s _ => ?_
    simp only [tableLengths, h, Table.entry_tabulate]
    decide
  rw [kraftSum_eq_sum_codeWeight, hcoded]
  rfl

theorem kraftSum_tableLengths_of_two_le {f : Table (BitVec 64)}
    (h : 2 ≤ (presentSymbols f).length) : kraftSum (tableLengths f) = 2 ^ 255 := by
  rw [← kraftSum_buildLengths h, tableLengths]
  split
  · omega
  · omega
  · rfl

/-- Every table BUILD_TABLE computes is admissible. -/
theorem kraftSum_tableLengths_le (f : Table (BitVec 64)) : kraftSum (tableLengths f) ≤ 2 ^ 255 := by
  rcases Nat.lt_or_ge (presentSymbols f).length 2 with hfew | htwo
  · rcases Nat.le_one_iff_eq_zero_or_eq_one.1 (Nat.le_of_lt_succ hfew) with hnone | hone
    · rw [kraftSum_tableLengths_of_none hnone]
      exact Nat.zero_le _
    · rw [kraftSum_tableLengths_of_one hone]
      exact Nat.pow_le_pow_right (by decide) (by decide)
  · exact (kraftSum_tableLengths_of_two_le htwo).le

end Sys2Proof.Machine
end

section
/-! # What a step keeps of the tables and of STATUS (10_state.md R30 to R52)

Every command ends in the completion writes of some `Ended`. What an `Ended` may be is said once
(`Ended.Lawful`), each command is shown to end so, and the two invariants are then proved move by
move without a word on single commands. -/

namespace Sys2Proof.Machine

/-! ## Frames -/

theorem HostRegsKept.refl (s : State) : HostRegsKept s s :=
  ⟨rfl, rfl, rfl, rfl, rfl, rfl, rfl, rfl, rfl, rfl, rfl, rfl, rfl, rfl, rfl, rfl⟩

theorem HostRegsKept.writeDst {s t : State} (h : HostRegsKept s t) (bs : List Byte) :
    HostRegsKept s (t.writeDst bs) := { h with }

theorem HostRegsKept.scrambleDst {s t : State} (h : HostRegsKept s t) :
    HostRegsKept s t.scrambleDst := { h with }

theorem HostRegsKept.useDraw {s t : State} (h : HostRegsKept s t) : HostRegsKept s t.useDraw :=
  { h with }

theorem HostRegsKept.setOrigLen {s t : State} (h : HostRegsKept s t) (v : Nat) :
    HostRegsKept s (t.setOrigLen v) := { h with }

theorem HostRegsKept.setFreq {s t : State} (h : HostRegsKept s t) (f : Table (BitVec 64)) :
    HostRegsKept s (t.setFreq f) := { h with }

theorem HostRegsKept.setTable {s t : State} (h : HostRegsKept s t) (l : Table (BitVec 8))
    (c : Table (BitVec 255)) (v : Bool) : HostRegsKept s (t.setTable l c v) := { h with }

theorem CodesKept.refl (s : State) : CodesKept s s := ⟨rfl, rfl, rfl⟩

theorem TablesInvariant.of_codesKept {s t : State} (hs : TablesInvariant s) (h : CodesKept s t) :
    TablesInvariant t := by
  obtain ⟨hlen, hcode, hvalid⟩ := h
  unfold TablesInvariant
  rw [hlen, hcode, hvalid]
  exact hs

/-! ## What a command ends in -/

/-- The error is one of the pairs of code and detail the block writes (60_exceptions.md R251). -/
def CmdError.legal (e : CmdError) : Bool := errPairLegal e.code e.detail

/-- What a command's own effects may be in the state `s`: no register a command does not write, no
table that breaks R49, no error outside R251. -/
structure Ended.Lawful (s : State) (e : Ended) : Prop where
  regs : HostRegsKept s e.state
  tables : TablesInvariant s → TablesInvariant e.state
  error : ∀ x, e.result = .error x → x.legal = true

theorem Ended.lawful_succeed {s t : State} (hregs : HostRegsKept s t) (hcodes : CodesKept s t)
    (r : Results) : (succeed t r).Lawful s :=
  ⟨hregs, fun hs => hs.of_codesKept hcodes, fun _ h => nomatch h⟩

theorem Ended.lawful_fail {s t : State} {e : CmdError} (hregs : HostRegsKept s t)
    (hcodes : CodesKept s t) (he : e.legal = true) : (fail t e).Lawful s :=
  ⟨hregs, fun hs => hs.of_codesKept hcodes, fun _ h => Except.error.inj h ▸ he⟩

/-- A command that fails with no effect of its own. -/
theorem Ended.lawful_fail_self {s : State} {e : CmdError} (he : e.legal = true) :
    (fail s e).Lawful s := lawful_fail (.refl s) (.refl s) he

/-- A command that fails and leaves its destination range unspecified. -/
theorem Ended.lawful_fail_scrambleDst {s : State} {e : CmdError} (he : e.legal = true) :
    (fail s.scrambleDst e).Lawful s := lawful_fail (HostRegsKept.refl s).scrambleDst (.refl s) he

theorem Ended.lawful_succeed_self (s : State) (r : Results) : (succeed s r).Lawful s :=
  lawful_succeed (.refl s) (.refl s) r

theorem Ended.lawful_succeed_writeDst (s : State) (bs : List Byte) (r : Results) :
    (succeed (s.writeDst bs) r).Lawful s :=
  lawful_succeed ((HostRegsKept.refl s).writeDst bs) (.refl s) r

theorem Ended.lawful_succeed_setFreq (s : State) (f : Table (BitVec 64)) (r : Results) :
    (succeed (s.setFreq f) r).Lawful s :=
  lawful_succeed ((HostRegsKept.refl s).setFreq f) (.refl s) r

/-- A command that installs the canonical codes of an admissible length array. -/
theorem Ended.lawful_succeed_setTable (s : State) {l : Table (BitVec 8)}
    (hl : kraftSum l ≤ 2 ^ 255) (r : Results) :
    (succeed (s.setTable l (canonical l) true) r).Lawful s :=
  ⟨(HostRegsKept.refl s).setTable _ _ _, fun _ _ => tableInvariant_canonical hl,
    fun _ h => nomatch h⟩

/-- The answer is the completion of a lawful end. -/
def CompletesLawfully (s : State) (o : Host.Outcome State Fault Refusal) : Prop :=
  ∃ e : Ended, e.Lawful s ∧ o = .next e.complete

/-- The checks report legal errors only. -/
def checksLegal (cs : List Check) : Bool := cs.all fun c => c.2.legal

theorem firstFailing_legal {cs : List Check} {e : CmdError} (hcs : checksLegal cs = true)
    (h : firstFailing cs = some e) : e.legal = true := by
  induction cs with
  | nil => cases h
  | cons c cs ih =>
    obtain ⟨failed, x⟩ := c
    obtain ⟨hx, hrest⟩ : x.legal = true ∧ checksLegal cs = true := by
      simpa only [checksLegal, List.all_cons, Bool.and_eq_true] using hcs
    rw [firstFailing_cons] at h
    split at h
    · exact Option.some.inj h ▸ hx
    · exact ih hrest h

theorem runCommand_lawful {s : State} {checks : List Check} {body : State → Ended}
    (hchecks : checksLegal checks = true) (hbody : (body s).Lawful s) :
    CompletesLawfully s (runCommand s checks body) := by
  rcases runCommand_cases s checks body with ⟨e, he, hrun⟩ | ⟨-, hrun⟩
  · exact ⟨fail s e, Ended.lawful_fail_self (firstFailing_legal hchecks he), hrun⟩
  · exact ⟨body s, hbody, hrun⟩

/-! ## The errors of the decoders -/

theorem parseBonds_error {n : Nat} {bs : List Byte} {d : ErrDetail}
    (h : parseBonds n bs = .error d) : d = .chainShape := by
  induction n generalizing bs with
  | zero => cases h
  | succ n ih =>
    simp only [parseBonds] at h
    split at h
    · exact (Except.error.inj h).symm
    · split at h
      · cases h
        exact ih ‹_›
      · cases h

theorem parseTensors_error {tc n : Nat} {bonds : List Nat} {bs : List Byte} {d : ErrDetail}
    (h : parseTensors tc bonds n bs = .error d) : d = .chainTruncated ∨ d = .chainShape := by
  induction n generalizing bs with
  | zero => cases h
  | succ n ih =>
    simp only [parseTensors] at h
    split at h
    · exact .inl (Except.error.inj h).symm
    split at h
    · exact .inr (Except.error.inj h).symm
    split at h
    · exact .inl (Except.error.inj h).symm
    split at h
    · cases h
      exact ih ‹_›
    · cases h

/-- The errors of a chain that does not parse (42_tensor_train.md R164, R165). -/
theorem parseChain_error {src : List Byte} {d : ErrDetail} (h : parseChain src = .error d) :
    d = .chainTruncated ∨ d = .chainShape ∨ d = .physDim := by
  simp only [parseChain] at h
  split at h
  · exact .inl (Except.error.inj h).symm
  split at h
  · exact .inr (.inl (Except.error.inj h).symm)
  split at h
  · exact .inr (.inr (Except.error.inj h).symm)
  split at h
  · exact .inl (Except.error.inj h).symm
  split at h
  · cases h
    exact .inr (.inl (parseBonds_error ‹_›))
  split at h
  · cases h
    exact (parseTensors_error ‹_›).imp_right .inl
  split at h
  · exact .inr (.inl (Except.error.inj h).symm)
  · cases h

theorem parseChain_error_legal {src : List Byte} {d : ErrDetail} (h : parseChain src = .error d) :
    (decompressionFailed d).legal = true := by
  rcases parseChain_error h with rfl | rfl | rfl <;> rfl

/-- Decoding only ever reports NO_CODE or BITS_EXHAUSTED (43_huffman.md R208 to R210). -/
theorem decodeSymbols_error {book : List (Byte × List Bool)} {n : Nat} {rest : List Bool}
    {d : ErrDetail} (h : decodeSymbols book n rest = .error d) : d = .noCode ∨ d = .bitsExhausted := by
  induction n generalizing rest with
  | zero => cases h
  | succ n ih =>
    simp only [decodeSymbols] at h
    split at h
    · cases h
      exact matchStep_error ‹_›
    · split at h
      · cases h
        exact ih ‹_›
      · cases h

theorem decodeSymbols_error_legal {book : List (Byte × List Bool)} {n : Nat} {rest : List Bool}
    {d : ErrDetail} (h : decodeSymbols book n rest = .error d) :
    (decompressionFailed d).legal = true := by
  rcases decodeSymbols_error h with rfl | rfl <;> rfl

/-! ## The commands -/

theorem execNop_lawful (s : State) : CompletesLawfully s (execNop s) :=
  runCommand_lawful rfl (Ended.lawful_succeed_self s _)

theorem execAmpMap_lawful (s : State) : CompletesLawfully s (execAmpMap s) := by
  unfold execAmpMap
  exact runCommand_lawful rfl (Ended.lawful_succeed_writeDst s _ _)

theorem execAmpUnmap_lawful (s : State) : CompletesLawfully s (execAmpUnmap s) := by
  unfold execAmpUnmap
  exact runCommand_lawful rfl (Ended.lawful_succeed_writeDst s _ _)

theorem decomposeBody_lawful (s : State) : (decomposeBody s).Lawful s := by
  simp only [decomposeBody]
  split
  · exact Ended.lawful_fail_scrambleDst rfl
  · exact Ended.lawful_succeed (((HostRegsKept.refl s).writeDst _).setOrigLen _) (.refl s) _

theorem execDecompose_lawful (s : State) : CompletesLawfully s (execDecompose s) :=
  runCommand_lawful rfl (decomposeBody_lawful s)

theorem execChainCheck_lawful (s : State) : CompletesLawfully s (execChainCheck s) := by
  refine runCommand_lawful rfl ?_
  split
  · exact Ended.lawful_fail_self (parseChain_error_legal ‹_›)
  · exact Ended.lawful_succeed_self _ _

theorem execReconstruct_lawful (s : State) : CompletesLawfully s (execReconstruct s) := by
  refine runCommand_lawful rfl ?_
  split
  · exact Ended.lawful_fail_self (parseChain_error_legal ‹_›)
  · split
    · exact Ended.lawful_fail_self (firstFailing_legal rfl ‹_›)
    · exact Ended.lawful_succeed_writeDst _ _ _

theorem execHistClear_lawful (s : State) : CompletesLawfully s (execHistClear s) :=
  runCommand_lawful rfl (Ended.lawful_succeed_setFreq s _ _)

theorem histAccumBody_lawful (s : State) : (histAccumBody s).Lawful s := by
  simp only [histAccumBody]
  split
  · exact Ended.lawful_fail ((HostRegsKept.refl s).setFreq _).useDraw (.refl s) rfl
  · exact Ended.lawful_succeed_setFreq _ _ _

theorem execHistAccum_lawful (s : State) : CompletesLawfully s (execHistAccum s) :=
  runCommand_lawful rfl (histAccumBody_lawful s)

theorem execBuildTable_lawful (s : State) : CompletesLawfully s (execBuildTable s) :=
  runCommand_lawful rfl (Ended.lawful_succeed_setTable s (kraftSum_tableLengths_le s.freq) _)

theorem execTableStore_lawful (s : State) : CompletesLawfully s (execTableStore s) :=
  runCommand_lawful rfl (Ended.lawful_succeed_writeDst s _ _)

/-- An oversubscribed array clears TABLE_VALID (43_huffman.md R196). -/
theorem tableLoadBody_lawful (s : State) : (tableLoadBody s).Lawful s := by
  simp only [tableLoadBody]
  split
  · exact Ended.lawful_succeed_setTable s (of_decide_eq_true ‹admissible _ = true›) _
  · exact ⟨((HostRegsKept.refl s).setTable _ _ _).useDraw, (fun _ hvalid => nomatch hvalid),
      fun _ h => Except.error.inj h ▸ rfl⟩

theorem execTableLoad_lawful (s : State) : CompletesLawfully s (execTableLoad s) :=
  runCommand_lawful rfl (tableLoadBody_lawful s)

theorem encodeBody_lawful (s : State) : (encodeBody s).Lawful s := by
  simp only [encodeBody]
  split
  · exact Ended.lawful_fail_scrambleDst rfl
  split
  · exact Ended.lawful_fail_scrambleDst rfl
  · exact Ended.lawful_succeed_writeDst _ _ _

theorem execEncode_lawful (s : State) : CompletesLawfully s (execEncode s) :=
  runCommand_lawful rfl (encodeBody_lawful s)

theorem decodeBody_lawful (s : State) : (decodeBody s).Lawful s := by
  simp only [decodeBody]
  split
  · exact Ended.lawful_fail_self rfl
  split
  · exact Ended.lawful_fail_scrambleDst (decodeSymbols_error_legal ‹_›)
  · exact Ended.lawful_succeed_writeDst _ _ _

theorem execDecode_lawful (s : State) : CompletesLawfully s (execDecode s) :=
  runCommand_lawful rfl (decodeBody_lawful s)

theorem execHdrPack_lawful (s : State) : CompletesLawfully s (execHdrPack s) :=
  runCommand_lawful rfl (Ended.lawful_succeed_writeDst s _ _)

theorem execHdrParse_lawful (s : State) : CompletesLawfully s (execHdrParse s) := by
  refine runCommand_lawful rfl ?_
  split
  · exact Ended.lawful_fail_self (firstFailing_legal rfl ‹_›)
  · exact Ended.lawful_succeed_self _ _

theorem exec_lawful (i : Instr) (s : State) : CompletesLawfully s (exec i s) := by
  cases i with
  | nop => exact execNop_lawful s
  | ampMap => exact execAmpMap_lawful s
  | ampUnmap => exact execAmpUnmap_lawful s
  | decompose => exact execDecompose_lawful s
  | chainCheck => exact execChainCheck_lawful s
  | reconstruct => exact execReconstruct_lawful s
  | histClear => exact execHistClear_lawful s
  | histAccum => exact execHistAccum_lawful s
  | buildTable => exact execBuildTable_lawful s
  | tableStore => exact execTableStore_lawful s
  | tableLoad => exact execTableLoad_lawful s
  | encode => exact execEncode_lawful s
  | decode => exact execDecode_lawful s
  | hdrPack => exact execHdrPack_lawful s
  | hdrParse => exact execHdrParse_lawful s

/-- The engine's move leaves the state, or completes a lawful end. -/
theorem engineStep_lawful {s t : State} (h : engineStep s = .next t) :
    t = s ∨ ∃ e : Ended, e.Lawful s ∧ t = e.complete := by
  rcases engineStep_cases h with ⟨-, rfl⟩ | ⟨w, e, -, -, rfl⟩ | ⟨w, i, -, -, hexec⟩
  · exact .inl rfl
  · exact .inr ⟨fail s (illegalError e), Ended.lawful_fail_self (by cases e <;> rfl), rfl⟩
  · obtain ⟨e, he, hnext⟩ := exec_lawful i s
    exact .inr ⟨e, he, Host.Outcome.next.inj (hexec.symm.trans hnext)⟩

/-! ## Moves -/

/-- An invariant that every kind of move keeps, whatever the moves still to come, is kept by every
step. -/
theorem step_preserves {P : State → Prop}
    (hagenda : ∀ s ts, P s → P { s with agenda := ts })
    (hhost : ∀ s x, P s → P (s.hostTxn x))
    (hengine : ∀ s (e : Ended), P s → e.Lawful s → P e.complete)
    (hreset : ∀ s, P (platformReset s))
    {s t : State} (hs : P s) (h : step s = .next t) : P t := by
  have hmove {u : State} (hu : P u) (hstep : engineStep u = .next t) : P t := by
    rcases engineStep_lawful hstep with rfl | ⟨e, he, rfl⟩
    · exact hu
    · exact hengine u e hu he
  have hpoll (ts : List Turn) : P (State.regRead { s with agenda := ts } statusOffset) :=
    hhost _ (.regRead statusOffset) (hagenda s ts hs)
  rcases step_cases h with ⟨-, hstep⟩ | ⟨x, ts, -, rfl⟩ | ⟨ts, -, hstep⟩ | ⟨ts, -, rfl⟩ |
    ⟨ts, -, rfl⟩ | ⟨ts, -, rfl⟩
  · exact hmove hs hstep
  · exact hhost _ x (hagenda s ts hs)
  · exact hmove (hagenda s ts hs) hstep
  · exact hreset _
  · simp only [hostWait]
    split
    · exact hagenda _ _ (hpoll ts)
    · exact hpoll ts
  · simp only [hostCheck]
    split
    · exact hagenda _ _ (hpoll ts)
    · exact hpoll ts

/-- Everything a store to an operand register does (10_state.md R57). -/
theorem storeOperand_eq (s : State) (r : Reg) (v : Word) :
    s.storeOperand r v =
      { s with
        srcAddr := if r = .srcAddr then v else s.srcAddr
        srcLen := if r = .srcLen then v else s.srcLen
        dstAddr := if r = .dstAddr then v else s.dstAddr
        dstCap := if r = .dstCap then v else s.dstCap
        maxRank := if r = .maxRank then v else s.maxRank
        epsLo := if r = .epsLo then v else s.epsLo
        epsHi := if r = .epsHi then v else s.epsHi
        origLenLo := if r = .origLenLo then v else s.origLenLo
        origLenHi := if r = .origLenHi then v else s.origLenHi
        tsel := if r = .tsel then v.extractLsb' 0 8 else s.tsel } := by
  cases r <;> rfl

/-! ## The tables -/

theorem regWrite_codesKept (s : State) (off : BitVec 8) (v : Word) :
    CodesKept s (s.regWrite off v) := by
  rcases regWrite_cases s off v with h | h | h | h | h | ⟨-, h⟩ | ⟨-, r, -, h⟩
  case inr.inr.inr.inr.inr.inr => rw [h, storeOperand_eq]; exact ⟨rfl, rfl, rfl⟩
  all_goals rw [h]; exact ⟨rfl, rfl, rfl⟩

/-- No host transaction changes LEN, CODE or TABLE_VALID. -/
theorem hostTxn_codesKept (s : State) (x : HostTxn) : CodesKept s (s.hostTxn x) := by
  cases x with
  | regRead off =>
    rcases regRead_cases s off with ⟨v, h⟩ | ⟨v, h⟩ <;> rw [State.hostTxn, h] <;> exact .refl s
  | regWrite off v => exact regWrite_codesKept s off v
  | bufRead a n =>
    rcases bufRead_cases s a n with h | ⟨v, h⟩ <;> rw [State.hostTxn, h] <;> exact .refl s
  | bufWrite a n v =>
    rcases bufWrite_cases s a n v with h | h | ⟨-, -, h⟩ <;> rw [State.hostTxn, h] <;> exact .refl s

/-- The completion writes leave the tables. -/
theorem complete_codesKept (e : Ended) : CodesKept e.state e.complete := by
  unfold Ended.complete
  split <;> exact ⟨rfl, rfl, rfl⟩

/-- Settles O59: only BUILD_TABLE and TABLE_LOAD write LEN and CODE, they set TABLE_VALID with the
canonical codes of an admissible array only, and those are a valid table. -/
theorem stepKeepsTablesInvariant : Obligations.StepKeepsTablesInvariant := by
  intro s t hs h
  refine step_preserves (P := TablesInvariant) ?agenda ?host ?engine ?reset hs h
  case agenda => exact fun s ts hs => hs
  case host => exact fun s x hs => hs.of_codesKept (hostTxn_codesKept s x)
  case engine => exact fun s e hs he => (he.tables hs).of_codesKept (complete_codesKept e)
  case reset => exact fun s hvalid => nomatch hvalid

/-! ## STATUS -/

/-- CMD, the engine, the error fields and the results are as before, and DONE is not set. -/
structure StatusKept (s t : State) : Prop where
  cmd : t.cmd = s.cmd
  lastOp : t.lastOp = s.lastOp
  engine : t.engine = s.engine
  errCode : t.errCode = s.errCode
  errDetail : t.errDetail = s.errDetail
  resultLen : t.resultLen = s.resultLen
  consumed : t.consumed = s.consumed
  aux0 : t.aux0 = s.aux0
  aux1 : t.aux1 = s.aux1
  done : s.done = false → t.done = false

theorem StatusKept.refl (s : State) : StatusKept s s :=
  ⟨rfl, rfl, rfl, rfl, rfl, rfl, rfl, rfl, rfl, id⟩

theorem StatusInvariant.of_statusKept {s t : State} (hs : StatusInvariant s) (h : StatusKept s t) :
    StatusInvariant t where
  lastOp := by rw [h.lastOp, h.cmd, hs.lastOp]
  busy w hw := by
    obtain ⟨hcmd, hdone, hcode, hdetail⟩ := hs.busy w (h.engine ▸ hw)
    exact ⟨h.cmd.trans hcmd, h.done hdone, h.errCode.trans hcode, h.errDetail.trans hdetail⟩
  pair := by rw [h.errCode, h.errDetail, hs.pair]
  results hcode := by
    rw [h.resultLen, h.consumed, h.aux0, h.aux1]
    exact hs.results (h.errCode ▸ hcode)

theorem statusInvariant_issue (s : State) (w : Word) : StatusInvariant (s.issue w) where
  lastOp := rfl
  busy _ hw := ⟨Engine.busy.inj hw, rfl, rfl, rfl⟩
  pair := rfl
  results hcode := absurd rfl hcode

/-- A completion meets the invariant when LAST_OP matches CMD before it. -/
theorem statusInvariant_complete {s : State} {e : Ended} (hlast : s.lastOp = opByte s.cmd)
    (he : e.Lawful s) : StatusInvariant e.complete := by
  have hkept : e.state.lastOp = opByte e.state.cmd := by rw [he.regs.lastOp, he.regs.cmd, hlast]
  unfold Ended.complete
  split
  · exact ⟨hkept, (fun _ hw => nomatch hw), rfl, fun hcode => absurd rfl hcode⟩
  · exact ⟨hkept, (fun _ hw => nomatch hw), he.error _ ‹_›, fun _ => ⟨rfl, rfl, rfl, rfl⟩⟩

/-- A register write issues a command or keeps what the invariant speaks of. -/
theorem regWrite_statusKept_or_issue (s : State) (off : BitVec 8) (v : Word) :
    StatusKept s (s.regWrite off v) ∨ s.regWrite off v = s.issue v := by
  rcases regWrite_cases s off v with h | h | h | h | h | ⟨-, h⟩ | ⟨-, r, -, h⟩
  · rw [h]
    exact .inl (.refl s)
  · rw [h]
    exact .inl { StatusKept.refl s with }
  · rw [h]
    exact .inl { StatusKept.refl s with }
  · rw [h]
    refine .inl { StatusKept.refl s with done := fun hdone => ?_ }
    rw [State.writeStatus_done, hdone, Bool.false_and]
  · rw [h]
    exact .inl { StatusKept.refl s with }
  · exact .inr h
  · rw [h, storeOperand_eq]
    exact .inl { StatusKept.refl s with }

theorem statusInvariant_hostTxn {s : State} (hs : StatusInvariant s) (x : HostTxn) :
    StatusInvariant (s.hostTxn x) := by
  cases x with
  | regRead off =>
    rcases regRead_cases s off with ⟨v, h⟩ | ⟨v, h⟩ <;> rw [State.hostTxn, h] <;>
      exact hs.of_statusKept { StatusKept.refl s with }
  | regWrite off v =>
    rcases regWrite_statusKept_or_issue s off v with h | h
    · exact hs.of_statusKept h
    · rw [State.hostTxn, h]
      exact statusInvariant_issue s v
  | bufRead a n =>
    rcases bufRead_cases s a n with h | ⟨v, h⟩ <;> rw [State.hostTxn, h] <;>
      exact hs.of_statusKept { StatusKept.refl s with }
  | bufWrite a n v =>
    rcases bufWrite_cases s a n v with h | h | ⟨-, -, h⟩ <;> rw [State.hostTxn, h] <;>
      exact hs.of_statusKept { StatusKept.refl s with }

/-- Settles O60: an issue clears DONE and the error fields with the word stored, a completion leaves
a legal pair and no result of an error, and no other move touches them but to clear DONE. -/
theorem stepKeepsStatusInvariant : Obligations.StepKeepsStatusInvariant := by
  intro s t hs h
  refine step_preserves (P := StatusInvariant) ?agenda ?host ?engine ?reset hs h
  case agenda => exact fun s ts hs => hs.of_statusKept { StatusKept.refl s with }
  case host => exact fun s x hs => statusInvariant_hostTxn hs x
  case engine => exact fun s e hs he => statusInvariant_complete hs.lastOp he
  case reset => exact fun s => ⟨rfl, (fun _ hw => nomatch hw), rfl, fun hcode => absurd rfl hcode⟩

end Sys2Proof.Machine
end

section
/-! # The registers (10_state.md R21 to R59)

One lemma for what a write does to each kind of register and one for what a read answers; the
statements about offsets follow from these and from the register map. -/

namespace Sys2Proof.Machine

/-! ## The register map -/

@[simp] theorem regAt_regOffset (r : Reg) : regAt (regOffset r) = some r := by
  cases r with
  | tcode w => revert w; decide
  | _ => rfl

theorem eq_regOffset_of_regAt {off : BitVec 8} {r : Reg} (h : regAt off = some r) :
    off = regOffset r := by
  unfold regAt at h
  split at h
  case h_32 => cases h
  all_goals
    cases h
    exact BitVec.eq_of_toNat_eq ‹_›

theorem regAt_eq_some_iff {off : BitVec 8} {r : Reg} : regAt off = some r ↔ off = regOffset r :=
  ⟨eq_regOffset_of_regAt, fun h => h ▸ regAt_regOffset r⟩

/-- The registers stand at aligned offsets below 0x7C. -/
theorem regOffset_aligned (r : Reg) : (regOffset r).toNat % 4 = 0 ∧ (regOffset r).toNat < 0x7C := by
  cases r with
  | tcode w => revert w; decide
  | _ => decide

theorem regAt_eq_none {off : BitVec 8} (h : off.toNat % 4 ≠ 0 ∨ 0x7C ≤ off.toNat) :
    regAt off = none := by
  cases hr : regAt off with
  | none => rfl
  | some r =>
    obtain ⟨halign, hlt⟩ := regOffset_aligned r
    rw [eq_regOffset_of_regAt hr] at h
    omega

theorem regRead_of_none {off : BitVec 8} (h : regAt off = none) (s : State) :
    s.regRead off = s.answer 0 := by rw [State.regRead, h]

theorem regWrite_of_none {off : BitVec 8} (h : regAt off = none) (s : State) (v : Word) :
    s.regWrite off v = s := by rw [State.regWrite, h]

theorem regWrite_of_some {off : BitVec 8} {r : Reg} (h : regAt off = some r) (s : State) (v : Word) :
    s.regWrite off v = s.writeReg r v := by rw [State.regWrite, h]

theorem regRead_regOffset (s : State) (r : Reg) : s.regRead (regOffset r) = s.readReg r := by
  rw [State.regRead, regAt_regOffset]

theorem regWrite_regOffset (s : State) (r : Reg) (v : Word) :
    s.regWrite (regOffset r) v = s.writeReg r v := regWrite_of_some (regAt_regOffset r) s v

/-! ## Reads and writes by kind of register -/

theorem readReg_stable {s : State} {r : Reg} (h : s.isBusy = false ∨ regUnstable r = false) :
    s.readReg r = s.answer ((s.regValue r).setWidth 64) := by
  have hand : (s.isBusy && regUnstable r) = false := Bool.and_eq_false_iff.2 h
  rw [State.readReg, hand, if_neg Bool.false_ne_true]

theorem readReg_unstable {s : State} {r : Reg} (hbusy : s.isBusy = true)
    (hr : regUnstable r = true) :
    s.readReg r = (s.answer ((Config.draw 32 s.draws 0).setWidth 64)).useDraw := by
  rw [State.readReg, hbusy, hr, Bool.and_self, if_pos rfl]

theorem writeReg_cmd_idle {s : State} (h : s.isBusy = false) (w : Word) :
    s.writeReg .cmd w = s.issue w := if_neg (by rw [h]; exact Bool.false_ne_true)

theorem writeReg_cmd_busy {s : State} (h : s.isBusy = true) (w : Word) :
    s.writeReg .cmd w = s.setOverrun := if_pos h

theorem writeReg_status (s : State) (v : Word) : s.writeReg .status v = s.writeStatus v := rfl

theorem writeReg_irqEn (s : State) (v : Word) :
    s.writeReg .irqEn v = { s with doneIE := v.getLsbD 0 } := rfl

theorem writeReg_operand {r : Reg} (hr : regIsOperand r = true) (s : State) (v : Word) :
    s.writeReg r v = if s.isBusy then s.setConflict else s.storeOperand r v := by
  unfold State.writeReg
  split
  case h_4 => exact if_pos hr
  all_goals exact absurd hr (by decide)

theorem writeReg_readOnly {r : Reg} (hr : regIsOperand r = false) (hcmd : r ≠ .cmd)
    (hstatus : r ≠ .status) (hirqEn : r ≠ .irqEn) (s : State) (v : Word) : s.writeReg r v = s := by
  unfold State.writeReg
  split
  case h_4 => exact if_neg (by rw [hr]; exact Bool.false_ne_true)
  all_goals contradiction

/-! ## The writes at the offsets of CMD, STATUS and IRQ_EN -/

theorem regWrite_cmd_idle {s : State} (h : s.isBusy = false) (w : Word) :
    s.regWrite 0x0C#8 w = s.issue w := (regWrite_regOffset s .cmd w).trans (writeReg_cmd_idle h w)

theorem regWrite_cmd_busy {s : State} (h : s.isBusy = true) (w : Word) :
    s.regWrite 0x0C#8 w = s.setOverrun :=
  (regWrite_regOffset s .cmd w).trans (writeReg_cmd_busy h w)

theorem regWrite_status (s : State) (v : Word) : s.regWrite 0x10#8 v = s.writeStatus v :=
  regWrite_regOffset s .status v

theorem regWrite_irqEn (s : State) (v : Word) :
    s.regWrite 0x14#8 v = { s with doneIE := v.getLsbD 0 } := regWrite_regOffset s .irqEn v

/-! ## The statements about offsets -/

/-- Settles O11: `regAt` inverts `regOffset`, whose values are aligned and below 0x7C. -/
theorem registerMapIsExact : Obligations.RegisterMapIsExact := by
  refine ⟨fun off r => regAt_eq_some_iff, fun s off v h => ?_⟩
  have hnone := regAt_eq_none h
  exact ⟨regRead_of_none hnone s, regWrite_of_none hnone s v⟩

/-- Settles O10: the read of a register, by whether its value is stable. -/
theorem registerReadAnswers : Obligations.RegisterReadAnswers := by
  intro s r
  rw [regRead_regOffset]
  exact ⟨readReg_stable, fun hbusy hr => ⟨_, readReg_unstable hbusy hr⟩⟩

/-- Settles O9: one case for each kind of register. -/
theorem busyWriteIsRefused : Obligations.BusyWriteIsRefused := by
  intro s off v hbusy
  refine ⟨fun r hoff hr => ?operand, fun hoff => ?cmd, fun hoff => ?irqEn, fun hoff => ?status,
    fun r hoff hr hcmd hirqEn hstatus => ?readOnly, fun hoff => regWrite_of_none hoff s v⟩
  all_goals rw [regWrite_of_some hoff]
  case operand => rw [writeReg_operand hr, if_pos hbusy]; rfl
  case cmd => exact writeReg_cmd_busy hbusy v
  case irqEn => exact writeReg_irqEn s v
  case status => exact writeReg_status s v
  case readOnly => exact writeReg_readOnly hr hcmd hstatus hirqEn s v

/-- Settles O5: CMD is a stable register, and its write issues or overruns. -/
theorem cmdRegisterIssuesOrOverruns : Obligations.CmdRegisterIssuesOrOverruns :=
  ⟨fun _ w hidle => regWrite_cmd_idle hidle w, fun _ w hbusy => regWrite_cmd_busy hbusy w,
    fun s => (regRead_regOffset s .cmd).trans (readReg_stable (.inr rfl)), rfl⟩

/-! ## Operand registers -/

/-- TSEL holds and shows bits 7:0 of what is written to it (10_state.md R44). -/
theorem setWidth_extractLsb'_low_byte (v : Word) :
    (v.extractLsb' 0 8).setWidth 32 = v &&& 0xFF#32 := by
  refine BitVec.eq_of_toNat_eq ?_
  rw [BitVec.toNat_setWidth, BitVec.extractLsb'_toNat, BitVec.toNat_and, Nat.shiftRight_zero]
  have hmask : v.toNat &&& (0xFF#32).toNat = v.toNat % 2 ^ 8 := Nat.and_two_pow_sub_one_eq_mod _ 8
  omega

theorem regValue_storeOperand_same {r : Reg} (hr : regIsOperand r = true) (s : State) (v : Word) :
    (s.storeOperand r v).regValue r = if r = .tsel then v &&& 0xFF#32 else v := by
  cases r
  case tsel => exact setWidth_extractLsb'_low_byte v
  case srcAddr | srcLen | dstAddr | dstCap | maxRank | epsLo | epsHi | origLenLo | origLenHi => rfl
  all_goals cases hr

/-- The registers that show an entry of the tables, the one TSEL selects (10_state.md R45 to R47). -/
def regShowsEntry : Reg → Bool
  | .tlen => true
  | .tfreqLo => true
  | .tfreqHi => true
  | .tcode _ => true
  | _ => false

/-- A store to an operand register shows in that register, and a store to TSEL in the readback
registers; nowhere else. -/
theorem regValue_storeOperand_ne {q r : Reg} (hqr : q ≠ r)
    (hsel : r ≠ .tsel ∨ regShowsEntry q = false) (s : State) (v : Word) :
    (s.storeOperand r v).regValue q = s.regValue q := by
  rw [storeOperand_eq]
  cases q
  case status => rfl
  case irqEn => rfl
  case tlen | tfreqLo | tfreqHi | tcode =>
    have hr : r ≠ .tsel := hsel.resolve_right (Bool.noConfusion ·)
    simp only [State.regValue, if_neg hr]
  all_goals simp only [State.regValue, if_neg hqr.symm]

/-- Settles O8: the write is a store, and one store shows in one register and its readback. -/
theorem idleWriteStoresOperand : Obligations.IdleWriteStoresOperand := by
  refine ⟨fun s r v hr hidle => ?_, fun s r v _ hr hcmd hstatus hirqEn => ?_⟩
  · have hstore : s.regWrite (regOffset r) v = s.storeOperand r v := by
      rw [regWrite_regOffset, writeReg_operand hr, hidle, if_neg Bool.false_ne_true]
    rw [hstore]
    refine ⟨regValue_storeOperand_same hr s v,
      fun q hq hsel => regValue_storeOperand_ne hq (hsel.imp_right fun hview => ?_) s v, ?_⟩
    · obtain ⟨hlen, hlo, hhi, hcode⟩ := hview
      unfold regShowsEntry
      split
      case h_1 => exact absurd rfl hlen
      case h_2 => exact absurd rfl hlo
      case h_3 => exact absurd rfl hhi
      case h_4 w => exact absurd rfl (hcode w)
      case h_5 => rfl
    · rw [storeOperand_eq]
      exact ⟨fun _ => rfl, rfl, rfl, rfl, rfl, rfl⟩
  · rw [regWrite_regOffset]
    exact writeReg_readOnly hr hcmd hstatus hirqEn s v

/-! ## STATUS and IRQ_EN -/

/-- The fields of STATUS that are wider than a bit stand above its eight flag places. -/
theorem statusWord_getLsbD_eight_add (s : State) (i : Nat) :
    s.statusWord.getLsbD (8 + i) =
      (s.lastOp ++ s.errDetail.bits ++ (0#4 : BitVec 4) ++ s.errCode.bits).getLsbD i := by
  simp only [State.statusWord, BitVec.getLsbD_append]
  simp [Nat.sub_sub]

theorem statusWord_extract_eight_add (s : State) (j n : Nat) :
    s.statusWord.extractLsb' (8 + j) n =
      (s.lastOp ++ s.errDetail.bits ++ (0#4 : BitVec 4) ++ s.errCode.bits).extractLsb' j n := by
  refine BitVec.eq_of_getLsbD_eq fun i hi => ?_
  rw [BitVec.getLsbD_extractLsb', BitVec.getLsbD_extractLsb', Nat.add_assoc,
    statusWord_getLsbD_eight_add]

theorem err_eq_decide (s : State) : s.err = decide (s.errCode ≠ .none) := by
  cases h : s.errCode <;> rw [State.err, h] <;> rfl

/-- Settles O6: the flags bit by bit, the wider fields by where each is appended. -/
theorem statusWordFieldPlaces : Obligations.StatusWordFieldPlaces := by
  refine ⟨fun s => ⟨?_, ?_, ?_, ?_, ?_, ?_, ?_, ?_, ?errCode, ?reserved, ?errDetail, ?lastOp⟩,
    rfl, rfl, rfl, rfl, rfl, rfl, rfl⟩
  case errCode =>
    rw [statusWord_extract_eight_add s 0, BitVec.extractLsb'_append_eq_right]
  case reserved =>
    rw [statusWord_extract_eight_add s 4, BitVec.extractLsb'_append_eq_of_le (by decide),
      BitVec.extractLsb'_append_eq_right]
    rfl
  case errDetail =>
    rw [statusWord_extract_eight_add s 8, BitVec.extractLsb'_append_eq_of_le (by decide),
      BitVec.extractLsb'_append_eq_of_le (by decide), BitVec.extractLsb'_append_eq_right]
  case lastOp =>
    rw [statusWord_extract_eight_add s 16, BitVec.extractLsb'_append_eq_of_le (by decide),
      BitVec.extractLsb'_append_eq_of_le (by decide), BitVec.extractLsb'_append_eq_left]
  all_goals
    simp only [State.statusWord, BitVec.getLsbD_append]
    simp [err_eq_decide]

theorem irq_eq_true_iff (s : State) : s.irq = true ↔ s.done = true ∧ s.doneIE = true :=
  Bool.and_eq_true_iff

theorem irq_of_not_done {s : State} (h : s.done = false) : s.irq = false := by
  rw [State.irq, h, Bool.false_and]

/-- A STATUS write as the clearing of single flags (10_state.md R36). -/
theorem writeStatus_eq (s : State) (v : Word) :
    s.writeStatus v =
      { s with
        done := if v.getLsbD 1 then false else s.done
        overrun := if v.getLsbD 5 then false else s.overrun
        hostConflict := if v.getLsbD 6 then false else s.hostConflict } := by
  have hclear (flag bit : Bool) : (flag && !bit) = if bit then false else flag := by
    cases bit <;> simp
  simp only [State.writeStatus, hclear]

/-- DONE_IE is bit 0 of IRQ_EN, and every other bit reads 0 (10_state.md R37). -/
theorem irqEnWord_getLsbD (s : State) (k : Nat) :
    s.irqEnWord.getLsbD k = (decide (k = 0) && s.doneIE) := by
  rw [State.irqEnWord, BitVec.getLsbD_setWidth, BitVec.getLsbD_ofBool]
  by_cases hk : k = 0
  · subst hk
    rfl
  · rw [decide_eq_false hk, Bool.false_and, Bool.and_false]

/-- Settles O7: what the two writes do, then what each does to DONE and DONE_IE, whose conjunction
the interrupt output is. -/
theorem statusAndIrqEnWrites : Obligations.StatusAndIrqEnWrites := by
  refine ⟨fun s v => (regWrite_status s v).trans (writeStatus_eq s v),
    fun s => (regRead_regOffset s .status).trans (readReg_stable (.inr rfl)), regWrite_irqEn,
    fun s k hk => ?highBits, fun s => irqEnWord_getLsbD s 0, rfl, irq_eq_true_iff,
    fun s v hv => ?doneCleared, fun s w hidle => ?issued, fun s v hv => ?disabled⟩
  case highBits =>
    rw [State.regValue, irqEnWord_getLsbD, decide_eq_false (by omega), Bool.false_and]
  case doneCleared =>
    rw [regWrite_status]
    exact irq_of_not_done (by rw [State.writeStatus_done, hv, Bool.not_true, Bool.and_false])
  case issued =>
    rw [regWrite_cmd_idle hidle]
    exact ⟨rfl, irq_of_not_done rfl⟩
  case disabled => rw [regWrite_irqEn, State.irq, hv, Bool.and_false]

/-! ## Readback and reset -/

/-- Settles O12: the places of a slice of a word, read as arithmetic. -/
theorem readbackShowsSelectedEntry : Obligations.ReadbackShowsSelectedEntry := by
  intro s
  refine ⟨?tlen, ?tfreqLo, ?tfreqHi, fun w => ?tcode, ?topBit⟩
  case tlen =>
    simp only [State.regValue, BitVec.toNat_setWidth]
    omega
  case tfreqLo => simp only [State.regValue, BitVec.extractLsb'_toNat, Nat.shiftRight_zero]
  case tfreqHi =>
    simp only [State.regValue, BitVec.extractLsb'_toNat, Nat.shiftRight_eq_div_pow]
    omega
  case tcode => simp only [State.regValue, BitVec.extractLsb'_toNat, Nat.shiftRight_eq_div_pow]
  case topBit =>
    simp only [State.regValue, BitVec.getLsbD_extractLsb']
    exact BitVec.getLsbD_of_ge _ _ (by decide)

theorem Table.entry_replicate {α : Type} (a : α) (x : Byte) :
    Table.entry (Vector.replicate 256 a) x = a := Vector.getElem_replicate _

/-- Settles O15: by the fields of the reset state; the entries of a constant table are its constant. -/
theorem resetStateValues : Obligations.ResetStateValues := by
  refine ⟨fun r hid hversion hsize hrank => ?_, rfl, rfl, ?_, rfl,
    fun x => ⟨Table.entry_replicate _ x, Table.entry_replicate _ x, Table.entry_replicate _ x⟩,
    rfl, rfl, rfl⟩
  · cases r
    case id | version | bufSize | maxRank => contradiction
    case tlen | tfreqLo | tfreqHi | tcode =>
      simp only [State.regValue, State.reset, Table.entry_replicate, BitVec.ofNat_eq_ofNat,
        BitVec.setWidth_zero, BitVec.extractLsb'_zero]
    all_goals rfl
  · have hle := bufBytes_le
    rw [State.regValue, BitVec.toNat_ofNat, Nat.mod_eq_of_lt (by omega)]

end Sys2Proof.Machine
end

section
/-! # BUF under every move (20_memory.md R70 to R77)

A command changes BUF by at most one store, which lies in its destination range, and only when the
check of that range has passed; the host by at most one store through the buffer port, which checks
its own range. -/

namespace Sys2Proof.Machine

/-! ## The memory invariant -/

theorem MemoryInvariant.of_buf_eq {s t : State} (hs : MemoryInvariant s) (h : t.buf = s.buf) :
    MemoryInvariant t :=
  ⟨h ▸ hs.canonical, h ▸ hs.inside⟩

theorem MemoryInvariant.of_store {s t : State} {a : Nat} {bs : List Byte} (hs : MemoryInvariant s)
    (hinside : a + bs.length ≤ Config.bufBytes) (h : t.buf = Memory.write s.buf a bs) :
    MemoryInvariant t where
  canonical := h ▸ Memory.write_wf hs.canonical a bs
  inside := h ▸ Memory.write_inside hs.inside hinside

/-! ## What a command stores -/

/-- What a command may do to BUF: nothing, or one store in a destination range inside BUF
(30_encoding.md R104, R105). -/
inductive StoresInDst (s t : State) : Prop
  | kept (hbuf : t.buf = s.buf)
  | stored (bs : List Byte) (hinside : DstInside s) (hfits : bs.length ≤ s.dstCap.toNat)
      (hbuf : t.buf = Memory.write s.buf s.dstAddr.toNat bs)

theorem MemoryInvariant.of_storesInDst {s t : State} (hs : MemoryInvariant s)
    (h : StoresInDst s t) : MemoryInvariant t := by
  cases h with
  | kept hbuf => exact hs.of_buf_eq hbuf
  | stored bs hinside hfits hbuf =>
    exact hs.of_store ((Nat.add_le_add_left hfits _).trans hinside) hbuf

theorem storesInDst_writeDst {s : State} {bs : List Byte} (hinside : DstInside s)
    (hfits : bs.length ≤ s.dstCap.toNat) : StoresInDst s (s.writeDst bs) :=
  .stored bs hinside hfits rfl

theorem storesInDst_scrambleDst {s : State} (hinside : DstInside s) :
    StoresInDst s s.scrambleDst :=
  .stored _ hinside (drawBytes_length _ _).le (State.scrambleDst_buf s)

@[simp] theorem Ended.complete_buf (e : Ended) : e.complete.buf = e.state.buf := by
  unfold Ended.complete
  split <;> rfl

theorem StoresInDst.complete {s : State} {e : Ended} (h : StoresInDst s e.state) :
    StoresInDst s e.complete := by
  cases h with
  | kept hbuf => exact .kept (e.complete_buf.trans hbuf)
  | stored bs hinside hfits hbuf =>
    exact .stored bs hinside hfits (e.complete_buf.trans hbuf)

/-- The answer is a next state, whose BUF differs by at most one store in the destination range. -/
def AnswersStoringInDst (s : State) (o : Host.Outcome State Fault Refusal) : Prop :=
  ∃ t, o = .next t ∧ StoresInDst s t

/-- A command whose checks fail stores nothing, so its body is asked only when they pass. -/
theorem runCommand_storesInDst {s : State} {checks : List Check} {body : State → Ended}
    (hbody : firstFailing checks = none → StoresInDst s (body s).state) :
    AnswersStoringInDst s (runCommand s checks body) := by
  rcases runCommand_cases s checks body with ⟨e, -, hrun⟩ | ⟨hpass, hrun⟩
  · exact ⟨_, hrun, .kept rfl⟩
  · exact ⟨_, hrun, (hbody hpass).complete⟩

theorem dstInside_of_operandChecks {i : Instr} {s : State} (hi : usesDst i = true)
    (h : firstFailing (operandChecks i s) = none) : DstInside s := by
  obtain ⟨-, hdst, -⟩ := (operandChecks_pass i s).1 h
  exact hdst hi

/-- What the body of a command with a destination may rely on: its range lies in BUF, and the checks
after the operand checks pass. -/
theorem runCommand_dst_storesInDst {s : State} {i : Instr} {checks : List Check}
    {body : State → Ended} (hi : usesDst i = true)
    (hbody : DstInside s → firstFailing checks = none → StoresInDst s (body s).state) :
    AnswersStoringInDst s (runCommand s (operandChecks i s ++ checks) body) := by
  refine runCommand_storesInDst fun h => ?_
  rw [firstFailing_append, Option.or_eq_none_iff] at h
  obtain ⟨hoperands, hchecks⟩ := h
  exact hbody (dstInside_of_operandChecks hi hoperands) hchecks

/-! ## The sizes of what is stored -/

theorem amplitudeBytes_length (src : List Byte) :
    (src.flatMap fun b => c64Bytes (amp b)).length = 16 * src.length := by
  rw [← List.flatMap_map amp c64Bytes, flatMap_c64Bytes_length, List.length_map]

theorem header_length (n : Nat) : (header n).length = headerBytes := by
  rw [header, List.length_append, leBytes_length]
  rfl

theorem payload_length (l : Table (BitVec 8)) (c : Table (BitVec 255)) (src : List Byte) :
    (payload l c src).length = 8 + ceilDiv (bitCount l src) 8 := by
  rw [payload, List.length_append, leBytes_length, packBits_length, encodedBits_length]

/-! ## The commands -/

theorem firstFailing_cons_eq_none_iff {failed : Bool} {e : CmdError} {cs : List Check} :
    firstFailing ((failed, e) :: cs) = none ↔ failed = false ∧ firstFailing cs = none := by
  cases failed <;> simp

theorem le_of_capCheck {cap size : Nat} {e : CmdError}
    (h : firstFailing [(decide (cap < size), e)] = none) : size ≤ cap := by
  obtain ⟨hcap, -⟩ := firstFailing_cons_eq_none_iff.1 h
  exact Nat.not_lt.1 (of_decide_eq_false hcap)

theorem execNop_storesInDst (s : State) : AnswersStoringInDst s (execNop s) :=
  runCommand_storesInDst fun _ => .kept rfl

theorem execAmpMap_storesInDst (s : State) : AnswersStoringInDst s (execAmpMap s) := by
  unfold execAmpMap
  refine runCommand_dst_storesInDst rfl fun hinside hchecks => storesInDst_writeDst hinside ?_
  rw [amplitudeBytes_length, srcBytes_length]
  exact le_of_capCheck hchecks

theorem execAmpUnmap_storesInDst (s : State) : AnswersStoringInDst s (execAmpUnmap s) := by
  unfold execAmpUnmap
  refine runCommand_dst_storesInDst rfl fun hinside hchecks => storesInDst_writeDst hinside ?_
  obtain ⟨-, hcap⟩ := firstFailing_cons_eq_none_iff.1 hchecks
  rw [List.length_map, c64List_length]
  exact le_of_capCheck hcap

theorem decomposeBody_storesInDst {s : State} (hinside : DstInside s) :
    StoresInDst s (decomposeBody s).state := by
  simp only [decomposeBody]
  split
  · exact storesInDst_scrambleDst hinside
  · exact .stored _ hinside (Nat.not_lt.1 ‹_›) rfl

theorem execDecompose_storesInDst (s : State) : AnswersStoringInDst s (execDecompose s) :=
  runCommand_dst_storesInDst rfl fun hinside _ => decomposeBody_storesInDst hinside

theorem execChainCheck_storesInDst (s : State) : AnswersStoringInDst s (execChainCheck s) := by
  refine runCommand_storesInDst fun _ => ?_
  split <;> exact .kept rfl

theorem reconstructed_length_le (c : Chain) (n : Nat) : (reconstructed c n).length ≤ n := by
  rw [reconstructed, List.length_map, List.length_take]
  exact Nat.min_le_left _ _

/-- The last check of RECONSTRUCT (42_tensor_train.md R168). -/
theorem origLen_le_of_reconstructChecks {s : State} {c : Chain}
    (h : firstFailing (reconstructChecks s c) = none) : s.origLen ≤ s.dstCap.toNat := by
  obtain ⟨-, horig⟩ := firstFailing_cons_eq_none_iff.1 h
  obtain ⟨-, hcap⟩ := firstFailing_cons_eq_none_iff.1 horig
  exact le_of_capCheck hcap

theorem execReconstruct_storesInDst (s : State) : AnswersStoringInDst s (execReconstruct s) := by
  refine runCommand_storesInDst fun hoperands => ?_
  split
  · exact .kept rfl
  · split
    · exact .kept rfl
    · exact storesInDst_writeDst (dstInside_of_operandChecks rfl hoperands)
        ((reconstructed_length_le _ _).trans (origLen_le_of_reconstructChecks ‹_›))

theorem execHistClear_storesInDst (s : State) : AnswersStoringInDst s (execHistClear s) :=
  runCommand_storesInDst fun _ => .kept rfl

theorem execHistAccum_storesInDst (s : State) : AnswersStoringInDst s (execHistAccum s) := by
  refine runCommand_storesInDst fun _ => ?_
  simp only [histAccumBody]
  split <;> exact .kept rfl

theorem execBuildTable_storesInDst (s : State) : AnswersStoringInDst s (execBuildTable s) :=
  runCommand_storesInDst fun _ => .kept rfl

theorem execTableStore_storesInDst (s : State) : AnswersStoringInDst s (execTableStore s) := by
  unfold execTableStore
  refine runCommand_dst_storesInDst rfl fun hinside hchecks => storesInDst_writeDst hinside ?_
  obtain ⟨-, hcap⟩ := firstFailing_cons_eq_none_iff.1 hchecks
  rw [List.length_map, symbols_length]
  exact le_of_capCheck hcap

theorem execTableLoad_storesInDst (s : State) : AnswersStoringInDst s (execTableLoad s) := by
  refine runCommand_storesInDst fun _ => ?_
  simp only [tableLoadBody]
  split <;> exact .kept rfl

theorem encodeBody_storesInDst {s : State} (hinside : DstInside s) :
    StoresInDst s (encodeBody s).state := by
  simp only [encodeBody]
  split
  · exact storesInDst_scrambleDst hinside
  split
  · exact storesInDst_scrambleDst hinside
  · exact storesInDst_writeDst hinside (payload_length _ _ _ ▸ Nat.not_lt.1 ‹_›)

theorem execEncode_storesInDst (s : State) : AnswersStoringInDst s (execEncode s) :=
  runCommand_dst_storesInDst rfl fun hinside _ => encodeBody_storesInDst hinside

theorem decodeBody_storesInDst {s : State} (hinside : DstInside s) :
    StoresInDst s (decodeBody s).state := by
  simp only [decodeBody]
  split
  · exact .kept rfl
  split
  · exact storesInDst_scrambleDst hinside
  · exact storesInDst_writeDst hinside (decodeSymbols_length ‹_› ▸ Nat.not_lt.1 ‹_›)

theorem execDecode_storesInDst (s : State) : AnswersStoringInDst s (execDecode s) :=
  runCommand_dst_storesInDst rfl fun hinside _ => decodeBody_storesInDst hinside

theorem execHdrPack_storesInDst (s : State) : AnswersStoringInDst s (execHdrPack s) := by
  unfold execHdrPack
  refine runCommand_dst_storesInDst rfl fun hinside hchecks => storesInDst_writeDst hinside ?_
  rw [header_length]
  exact le_of_capCheck hchecks

theorem execHdrParse_storesInDst (s : State) : AnswersStoringInDst s (execHdrParse s) := by
  refine runCommand_storesInDst fun _ => ?_
  split <;> exact .kept rfl

theorem exec_storesInDst (i : Instr) (s : State) : AnswersStoringInDst s (exec i s) := by
  cases i with
  | nop => exact execNop_storesInDst s
  | ampMap => exact execAmpMap_storesInDst s
  | ampUnmap => exact execAmpUnmap_storesInDst s
  | decompose => exact execDecompose_storesInDst s
  | chainCheck => exact execChainCheck_storesInDst s
  | reconstruct => exact execReconstruct_storesInDst s
  | histClear => exact execHistClear_storesInDst s
  | histAccum => exact execHistAccum_storesInDst s
  | buildTable => exact execBuildTable_storesInDst s
  | tableStore => exact execTableStore_storesInDst s
  | tableLoad => exact execTableLoad_storesInDst s
  | encode => exact execEncode_storesInDst s
  | decode => exact execDecode_storesInDst s
  | hdrPack => exact execHdrPack_storesInDst s
  | hdrParse => exact execHdrParse_storesInDst s

theorem engineStep_storesInDst {s t : State} (h : engineStep s = .next t) : StoresInDst s t := by
  rcases engineStep_cases h with ⟨-, rfl⟩ | ⟨w, e, -, -, rfl⟩ | ⟨w, i, -, -, hexec⟩
  · exact .kept rfl
  · exact .kept rfl
  · obtain ⟨u, hu, hstores⟩ := exec_storesInDst i s
    exact Host.Outcome.next.inj (hu.symm.trans hexec) ▸ hstores

/-! ## The host -/

@[simp] theorem regRead_buf (s : State) (off : BitVec 8) : (s.regRead off).buf = s.buf := by
  rcases regRead_cases s off with ⟨v, h⟩ | ⟨v, h⟩ <;> rw [h] <;> rfl

@[simp] theorem regWrite_buf (s : State) (off : BitVec 8) (v : Word) :
    (s.regWrite off v).buf = s.buf := by
  rcases regWrite_cases s off v with h | h | h | h | h | ⟨-, h⟩ | ⟨-, r, -, h⟩
  case inr.inr.inr.inr.inr.inr => rw [h, storeOperand_eq]
  all_goals exact (congrArg State.buf h :)

@[simp] theorem bufRead_buf (s : State) (a : Word) (n : Width) : (s.bufRead a n).buf = s.buf := by
  rcases bufRead_cases s a n with h | ⟨v, h⟩ <;> rw [h] <;> rfl

@[simp] theorem hostWait_buf (s : State) : (hostWait s).buf = s.buf := by
  simp only [hostWait]
  split <;> exact regRead_buf s statusOffset

@[simp] theorem hostCheck_buf (s : State) : (hostCheck s).buf = s.buf := by
  simp only [hostCheck]
  split <;> exact regRead_buf s statusOffset

theorem memoryInvariant_bufWrite {s : State} (hs : MemoryInvariant s) (a : Word) (n : Width)
    (v : BitVec 64) : MemoryInvariant (s.bufWrite a n v) := by
  rcases bufWrite_cases s a n v with h | h | ⟨-, hinside, h⟩
  · exact hs.of_buf_eq (congrArg State.buf h :)
  · exact hs.of_buf_eq (congrArg State.buf h :)
  · exact hs.of_store ((leBytes_length n.bytes v.toNat).symm ▸ hinside) (congrArg State.buf h)

theorem memoryInvariant_hostTxn {s : State} (hs : MemoryInvariant s) (x : HostTxn) :
    MemoryInvariant (s.hostTxn x) := by
  cases x with
  | regRead off => exact hs.of_buf_eq (regRead_buf s off)
  | regWrite off v => exact hs.of_buf_eq (regWrite_buf s off v)
  | bufRead a n => exact hs.of_buf_eq (bufRead_buf s a n)
  | bufWrite a n v => exact memoryInvariant_bufWrite hs a n v

theorem memoryInvariant_platformReset (s : State) : MemoryInvariant (platformReset s) where
  canonical := reset_buf_wf
  inside _ hc := nomatch hc

/-- Settles O58: a completion stores in its destination range only, a host transaction through the
buffer port only, each inside BUF, and a reset empties the list. -/
theorem stepKeepsMemoryInvariant : Obligations.StepKeepsMemoryInvariant := by
  intro s t hs h
  have hmoved (ts : List Turn) : MemoryInvariant { s with agenda := ts } := hs.of_buf_eq rfl
  rcases step_cases h with ⟨-, hstep⟩ | ⟨x, ts, -, rfl⟩ | ⟨ts, -, hstep⟩ | ⟨ts, -, rfl⟩ |
    ⟨ts, -, rfl⟩ | ⟨ts, -, rfl⟩
  · exact hs.of_storesInDst (engineStep_storesInDst hstep)
  · exact memoryInvariant_hostTxn (hmoved ts) x
  · exact (hmoved ts).of_storesInDst (engineStep_storesInDst hstep)
  · exact memoryInvariant_platformReset _
  · exact (hmoved ts).of_buf_eq (hostWait_buf _)
  · exact (hmoved ts).of_buf_eq (hostCheck_buf _)

end Sys2Proof.Machine
end

section
/-! # The buffer port and the Busy host (20_memory.md R76, R77, R79, R82) -/

namespace Sys2Proof.Machine

/-! ## Little-endian bytes (20_memory.md R72) -/

theorem leBytes_getElem {n v i : Nat} (h : i < (leBytes n v).length) :
    (leBytes n v)[i] = BitVec.ofNat 8 (v / 256 ^ i) := by
  induction n generalizing v i with
  | zero => cases h
  | succ n ih =>
    cases i with
    | zero =>
      rw [Nat.pow_zero, Nat.div_one]
      exact BitVec.eq_of_toNat_eq (by simp [leBytes])
    | succ i =>
      rw [Nat.pow_succ', ← Nat.div_div_eq_div_mul]
      exact ih (Nat.lt_of_succ_lt_succ h)

theorem leNat_byte {bs : List Byte} {i : Nat} (h : i < bs.length) :
    BitVec.ofNat 8 (leNat bs / 256 ^ i) = bs[i] := by
  have hlen : i < (leBytes bs.length (leNat bs)).length := by rwa [leBytes_length]
  rw [← leBytes_getElem hlen]
  simp only [leBytes_leNat]

theorem extractLsb'_byte (x : BitVec 64) (i : Nat) :
    x.extractLsb' (8 * i) 8 = BitVec.ofNat 8 (x.toNat / 256 ^ i) := by
  rw [BitVec.extractLsb', Nat.shiftRight_eq_div_pow, Nat.pow_mul]

theorem Width.bytes_le_eight (n : Width) : n.bytes ≤ 8 := by
  cases n <;> decide

theorem readBytes_getElem {s : State} {a n i : Nat} (h : i < (s.readBytes a n).length) :
    (s.readBytes a n)[i] = s.readByte (a + i) := by
  simp only [State.readBytes, List.getElem_map, List.getElem_range]

/-! ## The buffer port by case -/

section
variable {s : State} {a : Word} {n : Width}

theorem bufWrite_inside (hidle : s.isBusy = false) (h : a.toNat + n.bytes ≤ Config.bufBytes)
    (v : BitVec 64) : s.bufWrite a n v = s.writeBytes a.toNat (leBytes n.bytes v.toNat) := by
  rw [State.bufWrite, hidle, if_neg Bool.false_ne_true, bufInside, if_pos (decide_eq_true h)]

theorem bufRead_inside (hidle : s.isBusy = false) (h : a.toNat + n.bytes ≤ Config.bufBytes) :
    s.bufRead a n = s.answer (BitVec.ofNat 64 (leNat (s.readBytes a.toNat n.bytes))) := by
  rw [State.bufRead, hidle, if_neg Bool.false_ne_true, bufInside, if_pos (decide_eq_true h)]

theorem bufWrite_outside (hidle : s.isBusy = false) (h : Config.bufBytes < a.toNat + n.bytes)
    (v : BitVec 64) : s.bufWrite a n v = s := by
  rw [State.bufWrite, hidle, if_neg Bool.false_ne_true, bufInside,
    if_neg (by rw [decide_eq_true_iff]; omega)]

theorem bufRead_outside (hidle : s.isBusy = false) (h : Config.bufBytes < a.toNat + n.bytes) :
    s.bufRead a n = s.answer 0 := by
  rw [State.bufRead, hidle, if_neg Bool.false_ne_true, bufInside,
    if_neg (by rw [decide_eq_true_iff]; omega)]

theorem bufWrite_busy (hbusy : s.isBusy = true) (v : BitVec 64) :
    s.bufWrite a n v = s.setConflict := if_pos hbusy

theorem bufRead_busy (hbusy : s.isBusy = true) : s.bufRead a n = (s.answer 0).setConflict :=
  if_pos hbusy

end

/-- The bytes of an access of width `n` are a value below `256 ^ n`, which 64 bits hold. -/
theorem leNat_readBytes_lt (s : State) (a : Nat) (n : Width) :
    leNat (s.readBytes a n.bytes) < 256 ^ n.bytes ∧ leNat (s.readBytes a n.bytes) < 2 ^ 64 := by
  have hlt := leNat_lt (s.readBytes a n.bytes)
  rw [readBytes_length] at hlt
  exact ⟨hlt, hlt.trans_le (Nat.pow_le_pow_right (n := 256) (by decide) n.bytes_le_eight)⟩

theorem readByte_bufWrite_inside {s : State} {a : Word} {n : Width} {i : Nat}
    (hidle : s.isBusy = false) (h : a.toNat + n.bytes ≤ Config.bufBytes) (v : BitVec 64)
    (hi : i < n.bytes) : (s.bufWrite a n v).readByte (a.toNat + i) = v.extractLsb' (8 * i) 8 := by
  have hlen : i < (leBytes n.bytes v.toNat).length := by rwa [leBytes_length]
  rw [bufWrite_inside hidle h, readByte_writeBytes_inside s _ _ i hlen, leBytes_getElem,
    extractLsb'_byte]

/-- Settles O13: the port's cases, with the bytes of a little-endian value. -/
theorem bufferPortAccess : Obligations.BufferPortAccess := by
  intro s a n v
  refine ⟨fun hidle h => ?inside,
    fun hidle h => ⟨bufWrite_outside hidle h v, bufRead_outside hidle h⟩,
    fun hbusy => ⟨bufWrite_busy hbusy v, bufRead_busy hbusy⟩⟩
  case inside =>
    obtain ⟨hwidth, hword⟩ := leNat_readBytes_lt s a.toNat n
    have hvalue := (BitVec.toNat_ofNat _ 64).trans (Nat.mod_eq_of_lt hword)
    refine ⟨fun i hi => readByte_bufWrite_inside hidle h v hi, ?kept, ?frame, _,
      bufRead_inside hidle h, hvalue.trans_lt hwidth, fun i hi => ?byte⟩
    case kept =>
      have hkept := memoryKeptOutside_writeBytes s a.toNat (leBytes n.bytes v.toNat)
      rwa [leBytes_length, ← bufWrite_inside hidle h] at hkept
    case frame => rw [bufWrite_inside hidle h]; rfl
    case byte =>
      have hlen : i < (s.readBytes a.toNat n.bytes).length := by rwa [readBytes_length]
      rw [extractLsb'_byte, hvalue, leNat_byte hlen, readBytes_getElem]

/-! ## The host while Busy -/

/-- All a host transaction can change while Busy: three STATUS flags, DONE_IE, and what a read
answers. -/
theorem hostTxn_busy_eq {s : State} (hbusy : s.isBusy = true) (x : HostTxn) :
    ∃ done overrun hostConflict doneIE draws reply, s.hostTxn x =
      { s with
        done := done, overrun := overrun, hostConflict := hostConflict, doneIE := doneIE
        draws := draws, reply := reply } := by
  have hnotIdle : s.isBusy ≠ false := by rw [hbusy]; exact Bool.noConfusion
  cases x with
  | regRead off =>
    rcases regRead_cases s off with ⟨v, h⟩ | ⟨v, h⟩ <;> exact ⟨_, _, _, _, _, _, h⟩
  | regWrite off v =>
    rcases regWrite_cases s off v with h | h | h | h | h | ⟨hidle, -⟩ | ⟨hidle, -⟩
    case inr.inr.inr.inr.inr.inl | inr.inr.inr.inr.inr.inr => exact absurd hidle hnotIdle
    all_goals exact ⟨_, _, _, _, _, _, h⟩
  | bufRead a n => exact ⟨_, _, _, _, _, _, bufRead_busy hbusy⟩
  | bufWrite a n v => exact ⟨_, _, _, _, _, _, bufWrite_busy hbusy v⟩

/-- Settles O14: no field a host transaction can change while Busy is among those named. -/
theorem busyHostCannotDisturbCommand : Obligations.BusyHostCannotDisturbCommand := by
  intro s x hbusy
  obtain ⟨done, overrun, hostConflict, doneIE, draws, reply, h⟩ := hostTxn_busy_eq hbusy x
  rw [h]
  exact ⟨rfl, rfl, rfl, ⟨rfl, rfl, rfl⟩, ⟨rfl, rfl⟩, rfl, rfl, rfl, rfl, rfl, rfl, rfl, rfl, rfl,
    rfl, rfl, rfl, rfl, rfl, rfl⟩

end Sys2Proof.Machine
end

section
/-! # Command words and the next move (30_encoding.md R101 to R105; 60_exceptions.md R254, R257)

A word is legal when its two fields are those of a command, which makes the decoder the inverse of
the encoder. Every command starts with the operand checks, so an operand error is settled for all
commands at once; and an error that comes before any effect of the command's own changes the
completion fields only, whatever state it is reported in. -/

namespace Sys2Proof.Machine

/-! ## The fields of a command word (R101) -/

theorem ofWord_op_toNat (w : Word) : (CmdWord.ofWord w).op.toNat = w.toNat % 256 :=
  BitVec.extractLsb'_toNat ..

theorem ofWord_rsvd_toNat (w : Word) : (CmdWord.ofWord w).rsvd.toNat = w.toNat / 256 := by
  have hlt := w.isLt
  calc (CmdWord.ofWord w).rsvd.toNat
      = w.toNat / 256 % 2 ^ 24 := by
        rw [CmdWord.ofWord, BitVec.extractLsb'_toNat, Nat.shiftRight_eq_div_pow]
    _ = w.toNat / 256 := Nat.mod_eq_of_lt (by omega)

/-- The two fields are all of the word. -/
theorem ofWord_injective : Function.Injective CmdWord.ofWord := by
  intro v w h
  have hop : v.toNat % 256 = w.toNat % 256 := by rw [← ofWord_op_toNat, h, ofWord_op_toNat]
  have hrsvd : v.toNat / 256 = w.toNat / 256 := by rw [← ofWord_rsvd_toNat, h, ofWord_rsvd_toNat]
  exact BitVec.eq_of_toNat_eq (by omega)

theorem ofWord_encodeWord (i : Instr) : CmdWord.ofWord (encodeWord i) = CmdWord.ofInstr i := by
  cases i <;> rfl

theorem ofWord_eq_ofInstr_iff {w : Word} {i : Instr} :
    CmdWord.ofWord w = CmdWord.ofInstr i ↔
      (CmdWord.ofWord w).op = i.opcode ∧ (CmdWord.ofWord w).rsvd = 0#24 := by
  simp only [CmdWord.ofWord, CmdWord.ofInstr, CmdWord.mk.injEq]

theorem reservedClear_iff {c : CmdWord} : c.reservedClear = true ↔ c.rsvd = 0#24 := beq_iff_eq

theorem reservedClear_eq_false {w : Word} (h : w.toNat / 256 ≠ 0) :
    (CmdWord.ofWord w).reservedClear = false := by
  refine Bool.eq_false_iff.2 fun hclear => h ?_
  rw [← ofWord_rsvd_toNat, reservedClear_iff.1 hclear]
  rfl

/-! ## The opcode map (R102) -/

@[simp] theorem instrOfOpcode_opcode (i : Instr) : instrOfOpcode i.opcode = some i := by
  cases i <;> rfl

theorem instrOfOpcode_eq_some_iff {op : Byte} {i : Instr} :
    instrOfOpcode op = some i ↔ op = i.opcode := by
  refine ⟨fun h => ?_, fun h => h ▸ instrOfOpcode_opcode i⟩
  unfold instrOfOpcode at h
  split at h
  case h_16 => cases h
  all_goals
    cases h
    exact BitVec.eq_of_toNat_eq ‹_›

theorem opcode_lt (i : Instr) : i.opcode.toNat < 0x0F := by
  cases i <;> decide

theorem instrOfOpcode_eq_none_iff {op : Byte} : instrOfOpcode op = none ↔ 0x0F ≤ op.toNat := by
  constructor
  · intro h
    unfold instrOfOpcode at h
    split at h
    case h_16 => grind
    all_goals cases h
  · intro h
    refine Option.eq_none_iff_forall_ne_some.2 fun i hi => ?_
    rw [instrOfOpcode_eq_some_iff.1 hi] at h
    exact Nat.not_lt.2 h (opcode_lt i)

/-! ## Decoding (R103, R108) -/

theorem decodeWord_eq_ok_iff {w : Word} {i : Instr} :
    decodeWord w = .ok i ↔ CmdWord.ofWord w = CmdWord.ofInstr i := by
  rw [ofWord_eq_ofInstr_iff, ← instrOfOpcode_eq_some_iff, ← reservedClear_iff]
  simp only [decodeWord]
  cases instrOfOpcode (CmdWord.ofWord w).op with
  | none => simp
  | some j => cases (CmdWord.ofWord w).reservedClear <;> simp

theorem decodeWord_encodeWord (i : Instr) : decodeWord (encodeWord i) = .ok i :=
  decodeWord_eq_ok_iff.2 (ofWord_encodeWord i)

theorem decodeWord_badOpcode {w : Word} (h : 0x0F ≤ w.toNat % 256) :
    decodeWord w = .error .badOpcode := by
  rw [← ofWord_op_toNat, ← instrOfOpcode_eq_none_iff] at h
  rw [decodeWord, h]

theorem decodeWord_reservedBits {w : Word} (hop : w.toNat % 256 < 0x0F)
    (hrsvd : w.toNat / 256 ≠ 0) : decodeWord w = .error .reservedBits := by
  rw [← ofWord_op_toNat, ← Nat.not_le, ← instrOfOpcode_eq_none_iff] at hop
  obtain ⟨i, hi⟩ := Option.ne_none_iff_exists'.1 hop
  simp only [decodeWord, hi, reservedClear_eq_false hrsvd, Bool.false_eq_true, if_false]

/-- Settles O1: a word is its two fields, and the decoder answers a command for its fields only. -/
theorem decodeNamesExactlyTheEncodedWords : Obligations.DecodeNamesExactlyTheEncodedWords := by
  intro w i
  rw [decodeWord_eq_ok_iff, ← ofWord_encodeWord, ofWord_injective.eq_iff]

/-- Settles O2: each word is the encoded word of its command. -/
theorem opcodeMapWordsDecode : Obligations.OpcodeMapWordsDecode :=
  ⟨decodeWord_encodeWord .nop, decodeWord_encodeWord .ampMap, decodeWord_encodeWord .ampUnmap,
    decodeWord_encodeWord .decompose, decodeWord_encodeWord .chainCheck,
    decodeWord_encodeWord .reconstruct, decodeWord_encodeWord .histClear,
    decodeWord_encodeWord .histAccum, decodeWord_encodeWord .buildTable,
    decodeWord_encodeWord .tableStore, decodeWord_encodeWord .tableLoad,
    decodeWord_encodeWord .encode, decodeWord_encodeWord .decode, decodeWord_encodeWord .hdrPack,
    decodeWord_encodeWord .hdrParse⟩

/-! ## Errors with no effect of the command's own (60_exceptions.md R253) -/

theorem failed_and_onlyCompletion {s : State} {e : CmdError} {o : Host.Outcome State Fault Refusal}
    (h : o = .next (s.completeFailure e)) :
    ∃ t, o = .next t ∧ Failed t e ∧ OnlyCompletion s t :=
  ⟨_, h, failed_completeFailure s e, onlyCompletion_completeFailure s e⟩

/-! ## The operand checks (R104, R105) -/

/-- Every command makes the operand checks first. -/
theorem exec_eq_runCommand (i : Instr) (s : State) :
    ∃ checks body, exec i s = runCommand s (operandChecks i s ++ checks) body := by
  cases i with
  | nop | chainCheck | reconstruct | histClear | histAccum | buildTable => exact ⟨[], _, by rfl⟩
  | ampMap | ampUnmap | decompose | tableStore | tableLoad | encode | decode | hdrPack | hdrParse =>
    exact ⟨_, _, by rfl⟩

theorem exec_operandError {i : Instr} {s : State} {e : CmdError}
    (h : firstFailing (operandChecks i s) = some e) :
    exec i s = .next (s.completeFailure e) := by
  obtain ⟨checks, body, hexec⟩ := exec_eq_runCommand i s
  rw [hexec]
  exact runCommand_failed body (by rw [firstFailing_append, h, Option.some_or])

theorem srcOutside_eq_true (s : State) : s.srcOutside = true ↔ ¬ SrcInside s := by
  rw [← srcOutside_eq_false, Bool.not_eq_false]

theorem dstOutside_eq_true (s : State) : s.dstOutside = true ↔ ¬ DstInside s := by
  rw [← dstOutside_eq_false, Bool.not_eq_false]

theorem rangesOverlap_eq_true (s : State) : s.rangesOverlap = true ↔ ¬ RangesApart s := by
  rw [← rangesOverlap_eq_false, Bool.not_eq_false]

section
variable {i : Instr} {s : State}

theorem srcCheck_passes (h : usesSrc i = true → SrcInside s) :
    (usesSrc i && s.srcOutside) = false := by
  cases hi : usesSrc i with
  | false => rfl
  | true => exact (srcOutside_eq_false s).2 (h hi)

theorem operandChecks_srcRange (hi : usesSrc i = true) (h : ¬ SrcInside s) :
    firstFailing (operandChecks i s) = some ⟨.badRange, .srcRange⟩ := by
  simp [operandChecks, hi, (srcOutside_eq_true s).2 h]

theorem operandChecks_dstRange (hsrc : usesSrc i = true → SrcInside s) (hi : usesDst i = true)
    (h : ¬ DstInside s) : firstFailing (operandChecks i s) = some ⟨.badRange, .dstRange⟩ := by
  simp [operandChecks, srcCheck_passes hsrc, hi, (dstOutside_eq_true s).2 h]

theorem operandChecks_overlap (hsrc : usesSrc i = true) (hdst : usesDst i = true)
    (hsrcIn : SrcInside s) (hdstIn : DstInside s) (h : ¬ RangesApart s) :
    firstFailing (operandChecks i s) = some ⟨.badRange, .overlap⟩ := by
  simp [operandChecks, hsrc, hdst, (srcOutside_eq_false s).2 hsrcIn,
    (dstOutside_eq_false s).2 hdstIn, (rangesOverlap_eq_true s).2 h]

end

/-- Settles O35: the first failing operand check is what every command reports. -/
theorem operandRangeErrorsInOrder : Obligations.OperandRangeErrorsInOrder := by
  intro i s
  refine ⟨fun hi h => ?src, fun hsrc hi h => ?dst, fun hsrc hdst hsrcIn hdstIn h => ?overlap⟩
  all_goals refine failed_and_onlyCompletion (exec_operandError ?_)
  case src => exact operandChecks_srcRange hi h
  case dst => exact operandChecks_dstRange hsrc hi h
  case overlap => exact operandChecks_overlap hsrc hdst hsrcIn hdstIn h

/-! ## The engine's move (R103; 60_exceptions.md R254) -/

section
variable {s : State} {w : Word}

theorem engineStep_idle (h : s.engine = .idle) : engineStep s = .next s := by
  rw [engineStep, h]

theorem engineStep_legal {i : Instr} (hbusy : s.engine = .busy w) (hw : decodeWord w = .ok i) :
    engineStep s = exec i s := by
  simp only [engineStep, hbusy, completeWord, hw]

theorem engineStep_illegal {e : Illegal} (hbusy : s.engine = .busy w)
    (hw : decodeWord w = .error e) : engineStep s = .next (s.completeFailure (illegalError e)) := by
  simp only [engineStep, hbusy, completeWord, hw]

end

/-! ## The step by the next move (60_exceptions.md R257) -/

section
variable {s : State} {ts : List Turn}

theorem step_of_agenda_nil (h : s.agenda = []) : step s = engineStep s := by
  rw [step, h]

theorem step_of_host {x : HostTxn} (h : s.agenda = .host x :: ts) :
    step s = .next (State.hostTxn { s with agenda := ts } x) := by
  rw [step, h]

theorem step_of_engine (h : s.agenda = .engine :: ts) :
    step s = engineStep { s with agenda := ts } := by
  rw [step, h]

theorem step_of_check (h : s.agenda = .check :: ts) :
    step s = .next (hostCheck { s with agenda := ts }) := by
  rw [step, h]

/-- The two places where the engine moves: the end of the agenda, and its own move. -/
theorem step_of_engineMoves (h : (s.agenda = [] ∧ ts = []) ∨ s.agenda = .engine :: ts) :
    step s = engineStep { s with agenda := ts } := by
  rcases h with ⟨hnil, rfl⟩ | hengine
  · rw [step_of_agenda_nil hnil, ← hnil]
  · exact step_of_engine hengine

end

theorem regRead_status (s : State) :
    s.regRead statusOffset = s.answer (s.statusWord.setWidth 64) :=
  (regRead_regOffset s .status).trans (readReg_stable (.inr rfl))

/-- CHECK reads STATUS, and on an error takes the host's moves away (R111). -/
theorem hostCheck_eq (s : State) :
    hostCheck s =
      { s with
        agenda := if s.errCode = .none then s.agenda else s.agenda.filter fun m => !turnOfHost m
        reply := some (s.statusWord.setWidth 64) } := by
  rw [hostCheck, regRead_status, err_eq_decide]
  by_cases h : s.errCode = .none
  · rw [if_pos h, if_neg (by simp [h])]; rfl
  · rw [if_neg h, if_pos (decide_eq_true h)]; rfl

/-- Settles O4: one case for each move, and for the engine's by what its word decodes to. -/
theorem stepTakesTheNextMove : Obligations.StepTakesTheNextMove := by
  refine ⟨fun s w i hnil hbusy hw => ?commandAtEnd, fun s w i ts hengine hbusy hw => ?command,
    fun s w ts hbusy hmoves => ?illegal, fun s x ts hhost => step_of_host hhost,
    fun s ts hcheck => ?check, fun s hnil hidle => ?idle⟩
  case commandAtEnd => rw [step_of_agenda_nil hnil, engineStep_legal hbusy hw]
  case command => exact (step_of_engine hengine).trans (engineStep_legal hbusy hw)
  case illegal =>
    have hfails {e : Illegal} (hw : decodeWord w = .error e) :=
      failed_and_onlyCompletion ((step_of_engineMoves hmoves).trans (engineStep_illegal hbusy hw))
    exact ⟨fun hop => hfails (decodeWord_badOpcode hop),
      fun hop hrsvd => hfails (decodeWord_reservedBits hop hrsvd)⟩
  case check => rw [step_of_check hcheck, hostCheck_eq]; rfl
  case idle => rw [step_of_agenda_nil hnil, engineStep_idle hidle]

/-! ## An illegal word from issue to completion (R100, R103) -/

theorem run_succ_of_step {s t : State} (h : step s = .next t) (k : Nat) :
    core.run (k + 1) s = core.run k t := by
  have hcore : core.step s = .next t := h
  simp only [Host.Core.run, hcore]

/-- What an issue writes beside CMD and LAST_OP, a failing completion writes again. -/
theorem completeFailure_issue (s : State) (w : Word) (e : CmdError) :
    (s.issue w).completeFailure e =
      State.completeFailure { s with cmd := w, lastOp := opByte w } e := rfl

theorem run_illegalWord {s : State} {w : Word} {ts : List Turn} {e : Illegal}
    (hidle : s.isBusy = false) (hagenda : s.agenda = .host (.regWrite 0x0C#8 w) :: .engine :: ts)
    (hw : decodeWord w = .error e) :
    core.run 2 s = .next (State.completeFailure
      { s with cmd := w, lastOp := opByte w, agenda := ts } (illegalError e)) := by
  have hissue : step s = .next (State.issue { s with agenda := .engine :: ts } w) :=
    (step_of_host hagenda).trans
      (congrArg _ (regWrite_cmd_idle (s := { s with agenda := .engine :: ts }) hidle w))
  have hcomplete : step (State.issue { s with agenda := .engine :: ts } w) =
      .next ((State.issue { s with agenda := ts } w).completeFailure (illegalError e)) :=
    (step_of_engine rfl).trans (engineStep_illegal rfl hw)
  calc core.run 2 s
      = core.run 1 (State.issue { s with agenda := .engine :: ts } w) := run_succ_of_step hissue 1
    _ = .next ((State.issue { s with agenda := ts } w).completeFailure (illegalError e)) :=
      run_succ_of_step hcomplete 0
    _ = _ := congrArg _ (completeFailure_issue { s with agenda := ts } w _)

/-- Settles O3: the two steps, with the error the word decodes to. -/
theorem illegalWordIsIssuedAndFails : Obligations.IllegalWordIsIssuedAndFails := by
  intro s w ts hidle hagenda
  have hfails {e : Illegal} (hw : decodeWord w = .error e) :=
    failed_and_onlyCompletion (run_illegalWord hidle hagenda hw)
  exact ⟨fun hop => hfails (decodeWord_badOpcode hop),
    fun hop hrsvd => hfails (decodeWord_reservedBits hop hrsvd)⟩

end Sys2Proof.Machine
end

section
/-! # The control command (40_control.md R130)

NOP uses neither range, so no operand check can fail, and it has no effect of its own: what is left
is a successful completion of the state it was issued in. -/

namespace Sys2Proof.Machine

/-- A command that uses neither range has no operand error (30_encoding.md R104, R105). -/
theorem operandChecks_pass_of_no_ranges {i : Instr} (hsrc : usesSrc i = false)
    (hdst : usesDst i = false) (s : State) : firstFailing (operandChecks i s) = none :=
  (operandChecks_pass i s).2 ⟨by simp [hsrc], by simp [hdst], by simp [hsrc]⟩

theorem exec_nop (s : State) : exec .nop s = .next (s.completeSuccess {}) := by
  have hchecks : firstFailing (operandChecks .nop s) = none :=
    operandChecks_pass_of_no_ranges rfl rfl s
  calc exec .nop s
      = runCommand s (operandChecks .nop s) (fun s => succeed s {}) := rfl
    _ = .next (succeed s {}).complete := runCommand_operands _ hchecks
    _ = .next (s.completeSuccess {}) := congrArg _ (complete_succeed s {})

/-- Settles O18: the successful completion with all four results 0, which fit their registers. -/
theorem nopCompletes : Obligations.NopCompletes := fun s =>
  ⟨s.completeSuccess {}, exec_nop s, succeeded_completeSuccess s {} (by decide),
    onlyCompletion_completeSuccess s {}⟩

end Sys2Proof.Machine
end

section
/-! # The amplitude mapper (41_amplitude.md R140, R141, R144)

Multiplying by a power of two only moves the exponent of a rounded magnitude, so R144 is read off
the roundings of 255 small quotients. `unamp` is stated once for each kind of its scaled operand. -/

namespace Sys2Proof.Machine

namespace F64

/-! ## Rounding and powers of two -/

theorem nearestQuot_mul_left {k : Nat} (hk : 0 < k) (n d : Nat) :
    nearestQuot (k * n) (k * d) = nearestQuot n d := by
  simp only [nearestQuot, Nat.mul_mod_mul_left, Nat.mul_div_mul_left _ _ hk, Nat.mul_left_comm 2 k,
    Nat.mul_lt_mul_left hk, Nat.mul_right_inj hk.ne']

theorem roundMag_mul_right {k : Nat} (hk : 0 < k) (num den : Nat) :
    roundMag (num * k) (den * k) = roundMag num den := by
  have hexcess : excess (num * k) (den * k) = excess num den := by
    rw [excess, Nat.mul_div_mul_right _ _ hk, excess]
  rw [roundMag_eq, roundMag_eq, hexcess, Nat.mul_comm num, Nat.mul_comm den, Nat.mul_assoc,
    nearestQuot_mul_left hk]

theorem roundMag_mul_units {u : Nat} (hu : 0 < u) (k m c : Nat) :
    roundMag (k * m * (c * u)) u = roundMag (k * (c * m)) 1 := by
  rw [← roundMag_mul_right hu (k * (c * m)) 1, Nat.one_mul]
  congr 1
  ring

theorem log2_two_pow_mul_div {num den : Nat} (k : Nat) (h : num / den ≠ 0) :
    (2 ^ k * num / den).log2 = k + (num / den).log2 := by
  have hden : 0 < den := Nat.pos_of_ne_zero fun h0 => h (by rw [h0, Nat.div_zero])
  have hlo := (Nat.le_div_iff_mul_le hden).1 (Nat.log2_self_le h)
  have hhi := (Nat.div_lt_iff_lt_mul hden).1 (Nat.lt_log2_self (n := num / den))
  have hlo' : 2 ^ (k + (num / den).log2) ≤ 2 ^ k * num / den := by
    rw [Nat.le_div_iff_mul_le hden, Nat.pow_add, Nat.mul_assoc]
    exact Nat.mul_le_mul_left _ hlo
  have hhi' : 2 ^ k * num / den < 2 ^ (k + (num / den).log2 + 1) := by
    rw [Nat.div_lt_iff_lt_mul hden, Nat.add_assoc, Nat.pow_add, Nat.mul_assoc]
    exact Nat.mul_lt_mul_of_pos_left hhi (Nat.two_pow_pos k)
  have hne : 2 ^ k * num / den ≠ 0 := ((Nat.two_pow_pos _).trans_le hlo').ne'
  exact (Nat.log2_eq_iff hne).2 ⟨hlo', hhi'⟩

/-- A power of two moves the exponent field and keeps the fraction. -/
theorem roundMag_two_pow_mul {num den k : Nat} (hnormal : 2 ^ 52 ≤ num / den)
    (hfin : k * 2 ^ 52 + roundMag num den < infMag) :
    roundMag (2 ^ k * num) den = k * 2 ^ 52 + roundMag num den := by
  have hne : num / den ≠ 0 := ((Nat.two_pow_pos 52).trans_le hnormal).ne'
  have hlog : 52 ≤ (num / den).log2 := (Nat.le_log2 hne).2 hnormal
  have hexcess : excess (2 ^ k * num) den = k + excess num den := by
    rw [excess, log2_two_pow_mul_div k hne, excess]
    omega
  have hlt : roundMag num den < infMag := (Nat.le_add_left _ _).trans_lt hfin
  rw [roundMag_eq_of_lt hlt] at hfin ⊢
  rw [roundMag_eq, hexcess, Nat.pow_add, Nat.mul_left_comm,
    nearestQuot_mul_left (Nat.two_pow_pos k), Nat.add_mul, Nat.add_assoc]
  exact min_eq_left hfin.le

theorem magUnits_shift {m : Nat} (k : Nat) (hnormal : 2 ^ 52 ≤ m) :
    magUnits (k * 2 ^ 52 + m) = 2 ^ k * magUnits m := by
  obtain ⟨e, q, rfl, hq, he⟩ := exists_shift_add m
  rw [magUnits_shift_add hq.le he, ← Nat.add_assoc, ← Nat.add_mul,
    magUnits_shift_add hq.le (by omega), Nat.pow_add]
  ring

/-! ## Finite values that are not negative -/

/-- Finite, with a clear sign bit. -/
structure PosFinite (x : F64) : Prop where
  notNaN : isNaN x = false
  notInf : isInf x = false
  signClear : sign x = false

theorem posFinite_pack {m : Nat} (h : m < infMag) : PosFinite (pack false m) := by
  have hm : m < 2 ^ 63 := h.trans (by decide)
  have hexp : expField (pack false m) ≠ 2047 := by
    rw [expField, BitVec.extractLsb'_toNat, toNat_pack_false hm, Nat.shiftRight_eq_div_pow]
    unfold infMag at h
    omega
  exact ⟨by rw [isNaN, beq_false_of_ne hexp, Bool.false_and],
    by rw [isInf, beq_false_of_ne hexp, Bool.false_and], sign_pack_false hm⟩

theorem mul_of_posFinite {a b : F64} (ha : PosFinite a) (hb : PosFinite b) :
    mul a b = pack false (roundMag (units a * units b) unitsPerOne) := by
  simp [mul, ha.notNaN, ha.notInf, ha.signClear, hb.notNaN, hb.notInf, hb.signClear]

theorem div_of_posFinite {a b : F64} (ha : PosFinite a) (hb : PosFinite b)
    (hzero : isZero b = false) :
    div a b = pack false (roundMag (units a * unitsPerOne) (units b)) := by
  simp [div, ha.notNaN, ha.notInf, ha.signClear, hb.notNaN, hb.notInf, hb.signClear, hzero]

/-! ## The bytes as binary64 values -/

/-- What is checked byte by byte (R144), at a scale where every rounded quotient is a small number:
the byte is exact, and 255 times the rounded quotient by 255 rounds to the byte. -/
theorem byte_roundings : ∀ n < 256, n ≠ 0 →
    magUnits (roundMag (n * 2 ^ 60) 1) = n * 2 ^ 60 ∧
    roundMag (255 * magUnits (roundMag (n * 2 ^ 60) 255)) 1 = roundMag (n * 2 ^ 60) 1 ∧
    (2 ^ 52 ≤ roundMag (n * 2 ^ 60) 1 ∧ roundMag (n * 2 ^ 60) 1 < 2 ^ 60) ∧
    (2 ^ 52 ≤ roundMag (n * 2 ^ 60) 255 ∧ roundMag (n * 2 ^ 60) 255 < 2 ^ 60) ∧
    2 ^ 52 ≤ 255 * magUnits (roundMag (n * 2 ^ 60) 255) := by decide +kernel

theorem unitsPerOne_eq {j k : Nat} (h : j + k = 1074) : unitsPerOne = 2 ^ j * 2 ^ k := by
  rw [unitsPerOne, ← h, Nat.pow_add]

theorem unitsPerOne_cast : (unitsPerOne : Int) = 2 ^ 1074 := by
  rw [unitsPerOne, Nat.cast_pow, Nat.cast_ofNat]

theorem unitsPerOne_pos : 0 < unitsPerOne := by
  rw [unitsPerOne]
  positivity

/-- A byte over `den`, counted in units: its rounding is that of a small quotient, moved. -/
theorem roundMag_byte {n den : Nat} (hnormal : 2 ^ 52 ≤ n * 2 ^ 60 / den)
    (hsmall : roundMag (n * 2 ^ 60) den < 2 ^ 60) :
    roundMag (n * unitsPerOne) den = 1014 * 2 ^ 52 + roundMag (n * 2 ^ 60) den := by
  rw [unitsPerOne_eq (j := 1014) (k := 60) rfl, Nat.mul_left_comm]
  exact roundMag_two_pow_mul hnormal (by unfold infMag; omega)

/-- The pattern of a byte that is not 0. -/
theorem ofNat_byte {n : Nat} (hn : n < 256) (h0 : n ≠ 0) :
    ofNat n = pack false (1014 * 2 ^ 52 + roundMag (n * 2 ^ 60) 1) := by
  obtain ⟨-, -, ⟨-, hsmall⟩, -⟩ := byte_roundings n hn h0
  rw [ofNat, roundMag_byte (by omega) hsmall]

theorem posFinite_ofNat_byte {n : Nat} (hn : n < 256) : PosFinite (ofNat n) := by
  refine posFinite_pack ?_
  rcases eq_or_ne n 0 with rfl | h0
  · decide +kernel
  · obtain ⟨-, -, ⟨-, hsmall⟩, -⟩ := byte_roundings n hn h0
    rw [roundMag_byte (by omega) hsmall]
    unfold infMag
    omega

/-- Every byte is a binary64 value exactly (R140). -/
theorem units_ofNat_byte {n : Nat} (hn : n < 256) : units (ofNat n) = n * unitsPerOne := by
  rcases eq_or_ne n 0 with rfl | h0
  · decide +kernel
  · obtain ⟨hexact, -, ⟨hnormal, hsmall⟩, -⟩ := byte_roundings n hn h0
    rw [ofNat_byte hn h0, units_pack_false (by omega), magUnits_shift 1014 hnormal, hexact,
      unitsPerOne_eq (j := 1014) (k := 60) rfl, Nat.mul_left_comm]

theorem c255_eq_ofNat : c255 = ofNat 255 := by decide +kernel

theorem posFinite_c255 : PosFinite c255 := c255_eq_ofNat ▸ posFinite_ofNat_byte (by decide)

theorem units_c255 : units c255 = 255 * unitsPerOne :=
  c255_eq_ofNat ▸ units_ofNat_byte (by decide)

/-- The rounded quotient of a byte by 255.0. -/
theorem div_byte_c255 {n : Nat} (hn : n < 256) (h0 : n ≠ 0) :
    div (ofNat n) c255 = pack false (1014 * 2 ^ 52 + roundMag (n * 2 ^ 60) 255) := by
  obtain ⟨-, -, -, ⟨-, hsmall⟩, -⟩ := byte_roundings n hn h0
  rw [div_of_posFinite (posFinite_ofNat_byte hn) posFinite_c255 (by decide), units_c255,
    units_ofNat_byte hn, roundMag_mul_right unitsPerOne_pos, roundMag_byte (by omega) hsmall]

/-- R144: the rounded quotient times 255.0 is the byte again. -/
theorem mul_div_byte_c255 {n : Nat} (hn : n < 256) : mul (div (ofNat n) c255) c255 = ofNat n := by
  rcases eq_or_ne n 0 with rfl | h0
  · decide +kernel
  obtain ⟨-, hback, ⟨-, hsmall⟩, ⟨hnormal, hquot⟩, hprod⟩ := byte_roundings n hn h0
  have hfin : 1014 * 2 ^ 52 + roundMag (n * 2 ^ 60) 255 < infMag := by unfold infMag; omega
  rw [div_byte_c255 hn h0, mul_of_posFinite (posFinite_pack hfin) posFinite_c255, units_c255,
    units_pack_false (by omega), magUnits_shift 1014 hnormal, ofNat_byte hn h0, ← hback,
    roundMag_mul_units unitsPerOne_pos, roundMag_two_pow_mul (by omega) (by unfold infMag; omega)]

/-! ## The nearest integer (R141) -/

theorem isNaN_of_isInf {x : F64} (h : isInf x = true) : isNaN x = false := by
  obtain ⟨-, hfrac⟩ : _ ∧ (fracField x == 0) = true := Bool.and_eq_true_iff.1 h
  rw [isNaN, bne, hfrac, Bool.not_true, Bool.and_false]

/-- The quotient `(2 * u + d) / (2 * d)` is an integer nearest to `u / d`, the greater of two
equally near. -/
theorem halfUpQuot_nearest {d : Nat} (hd : 0 < d) (u : Nat) :
    2 * ((((2 * u + d) / (2 * d) : Nat) : Int) * d - u).natAbs ≤ d ∧
      (2 * ((((2 * u + d) / (2 * d) : Nat) : Int) * d - u).natAbs = d →
        u < (2 * u + d) / (2 * d) * d) := by
  have hdiv := Nat.div_add_mod (2 * u + d) (2 * d)
  have hmod := Nat.mod_lt (2 * u + d) (Nat.mul_pos Nat.two_pos hd)
  rw [Nat.mul_assoc, Nat.mul_comm d] at hdiv
  rw [← Nat.cast_mul]
  generalize (2 * u + d) / (2 * d) * d = m at hdiv ⊢
  omega

/-- A sign changes no distance. -/
theorem natAbs_neg_mul_sub_neg (a b c : Int) : (-a * b - -c).natAbs = (a * b - c).natAbs := by
  rw [Int.neg_mul, ← Int.natAbs_neg]
  congr 1
  omega

theorem roundHalfAway_of_nonneg {x : F64} (h : sign x = false) :
    roundHalfAway x = ((2 * units x + unitsPerOne) / (2 * unitsPerOne) : Nat) := by
  rw [roundHalfAway, h, if_neg Bool.false_ne_true]

theorem roundHalfAway_of_neg {x : F64} (h : sign x = true) :
    roundHalfAway x = -((2 * units x + unitsPerOne) / (2 * unitsPerOne) : Nat) := by
  rw [roundHalfAway, h, if_pos rfl]

/-- `round_half_away` of a finite value: nearest, and on a tie further from zero. -/
theorem roundHalfAway_nearest (x : F64) :
    2 * (roundHalfAway x * unitsPerOne - signedUnits x).natAbs ≤ unitsPerOne ∧
      (2 * (roundHalfAway x * unitsPerOne - signedUnits x).natAbs = unitsPerOne →
        (signedUnits x).natAbs < (roundHalfAway x).natAbs * unitsPerOne) := by
  have h := halfUpQuot_nearest unitsPerOne_pos (units x)
  cases hsign : sign x with
  | false =>
    rw [roundHalfAway_of_nonneg hsign, signedUnits, hsign, if_neg Bool.false_ne_true,
      Int.natAbs_natCast, Int.natAbs_natCast]
    exact h
  | true =>
    rw [roundHalfAway_of_neg hsign, signedUnits, hsign, if_pos rfl, natAbs_neg_mul_sub_neg,
      Int.natAbs_neg, Int.natAbs_neg, Int.natAbs_natCast, Int.natAbs_natCast]
    exact h

theorem roundHalfAway_ofNat_byte {n : Nat} (hn : n < 256) : roundHalfAway (ofNat n) = n := by
  have hquot : (2 * (n * unitsPerOne) + unitsPerOne) / (2 * unitsPerOne) = n := by
    rw [show 2 * (n * unitsPerOne) + unitsPerOne = (2 * n + 1) * unitsPerOne by ring,
      Nat.mul_div_mul_right _ _ unitsPerOne_pos]
    omega
  rw [roundHalfAway_of_nonneg (posFinite_ofNat_byte hn).signClear, units_ofNat_byte hn, hquot]

end F64

/-! ## `unamp` by kind of operand -/

section
variable {z : C64}

theorem unamp_of_isNaN (h : F64.isNaN (F64.mul z.re F64.c255) = true) : unamp z = 0#8 := by
  rw [unamp, if_pos h]
  rfl

theorem unamp_of_isInf (h : F64.isInf (F64.mul z.re F64.c255) = true) :
    unamp z = if F64.sign (F64.mul z.re F64.c255) then 0#8 else 255#8 := by
  rw [unamp, if_neg (by simp [F64.isNaN_of_isInf h]), if_pos h]
  rfl

theorem unamp_of_finite (hnan : F64.isNaN (F64.mul z.re F64.c255) = false)
    (hinf : F64.isInf (F64.mul z.re F64.c255) = false) :
    ((unamp z).toNat : Int) = min 255 (max 0 (F64.roundHalfAway (F64.mul z.re F64.c255))) := by
  rw [unamp, if_neg (by simp [hnan]), if_neg (by simp [hinf]), BitVec.toNat_ofInt]
  omega

end

theorem mul_amp_c255 (b : Byte) : F64.mul (amp b).re F64.c255 = F64.ofNat b.toNat :=
  F64.mul_div_byte_c255 b.isLt

/-- The mapper has a left inverse (R144). -/
theorem unamp_amp (b : Byte) : unamp (amp b) = b := by
  have hfinite := mul_amp_c255 b ▸ F64.posFinite_ofNat_byte b.isLt
  have hround := unamp_of_finite hfinite.notNaN hfinite.notInf
  rw [mul_amp_c255, F64.roundHalfAway_ofNat_byte b.isLt] at hround
  have hb := b.isLt
  exact BitVec.eq_of_toNat_eq (by omega)

/-- Settles O47: the nearest integer is `roundHalfAway`, and both inverse laws rest on the exact
product `mul_amp_c255`. -/
theorem unampUndoesAmp : Obligations.UnampUndoesAmp := by
  refine ⟨?_, mul_amp_c255, unamp_amp, fun z => unamp_amp (unamp z)⟩
  rintro z x rfl
  refine ⟨unamp_of_isNaN, fun hinf hsign => ?_, fun hinf hsign => ?_, fun hnan hinf => ?_⟩
  · rw [unamp_of_isInf hinf, hsign]
    rfl
  · rw [unamp_of_isInf hinf, hsign]
    rfl
  · have hnearest := F64.roundHalfAway_nearest (F64.mul z.re F64.c255)
    rw [F64.unitsPerOne_cast, F64.unitsPerOne] at hnearest
    obtain ⟨hnear, htie⟩ := hnearest
    exact ⟨_, hnear, htie, unamp_of_finite hnan hinf⟩

end Sys2Proof.Machine
end

section
/-! # The amplitude commands and the capacity checks (41_amplitude.md R142, R143;
43_huffman.md R195; 44_container.md R240)

A command whose checks pass and whose body is one store succeeds with that store, and the first
check after the operand checks that fails is the one reported. -/

namespace Sys2Proof.Machine

/-! ## Commands with a destination range -/

section
variable {i : Instr} {s : State}

theorem operandChecks_pass_of_legal (hsrc : SrcInside s) (hdst : DstInside s)
    (hapart : RangesApart s) : firstFailing (operandChecks i s) = none :=
  (operandChecks_pass i s).2 ⟨fun _ => hsrc, fun _ => hdst, fun _ _ => hapart⟩

theorem operandChecks_pass_of_dst (hi : usesSrc i = false) (hdst : DstInside s) :
    firstFailing (operandChecks i s) = none :=
  (operandChecks_pass i s).2 ⟨by simp [hi], fun _ => hdst, by simp [hi]⟩

section
variable {checks : List Check} {body : State → Ended}
  (hexec : exec i s = runCommand s (operandChecks i s ++ checks) body)
  (hoperands : firstFailing (operandChecks i s) = none)
include hexec hoperands

/-- A check after the operand checks is the one that fails. -/
theorem exec_checkError {e : CmdError} (hchecks : firstFailing checks = some e) :
    ∃ t, exec i s = .next t ∧ Failed t e ∧ OnlyCompletion s t := by
  refine failed_and_onlyCompletion (hexec.trans ?_)
  rw [runCommand_append checks body hoperands, runCommand_failed body hchecks]

/-- The checks pass and the body is one store in the destination range. -/
theorem exec_stores {bs : List Byte} {r : Results} (hchecks : firstFailing checks = none)
    (hbody : body s = succeed (s.writeDst bs) r)
    (hfits : r.resultLen < 2 ^ 32 ∧ r.consumed < 2 ^ 32 ∧ r.aux0 < 2 ^ 32 ∧ r.aux1 < 2 ^ 32) :
    ∃ t, exec i s = .next t ∧ Succeeded t r ∧ OnlyStored s t bs := by
  refine ⟨_, hexec.trans ?_, succeeded_completeSuccess (s.writeDst bs) r hfits,
    onlyStored_writeDst s bs r⟩
  rw [runCommand_append checks body hoperands, runCommand_passed body hchecks, hbody,
    complete_succeed]

end

end

/-- Results that give lengths only fit their registers when the lengths do. -/
theorem lengths_fit {n c : Nat} (hn : n < 2 ^ 32) (hc : c < 2 ^ 32) :
    let r : Results := { resultLen := n, consumed := c }
    r.resultLen < 2 ^ 32 ∧ r.consumed < 2 ^ 32 ∧ r.aux0 < 2 ^ 32 ∧ r.aux1 < 2 ^ 32 :=
  ⟨hn, hc, Nat.two_pow_pos 32, Nat.two_pow_pos 32⟩

theorem capCheck_fails {cap size : Nat} {e : CmdError} (h : cap < size) :
    firstFailing [(decide (cap < size), e)] = some e := by
  rw [firstFailing_cons, decide_eq_true h, if_pos rfl]

theorem capCheck_passes {cap size : Nat} {e : CmdError} (h : size ≤ cap) :
    firstFailing [(decide (cap < size), e)] = none :=
  firstFailing_cons_eq_none_iff.2 ⟨decide_eq_false (Nat.not_lt.2 h), rfl⟩

theorem firstFailing_cons_passed {failed : Bool} {e : CmdError} {cs : List Check}
    (h : failed = false) : firstFailing ((failed, e) :: cs) = firstFailing cs := by
  rw [firstFailing_cons, h, if_neg Bool.false_ne_true]

/-! ## The capacity checks -/

/-- Settles O36: in each command the checks before the one named pass. -/
theorem capacityErrorsChangeNothing : Obligations.CapacityErrorsChangeNothing := by
  refine ⟨fun s hsrc hdst hapart hcap => ?ampMap, fun s hsrc hdst hapart halign => ?lenAlign,
    fun s hsrc hdst hapart halign hcap => ?ampUnmap, fun s hdst hvalid hcap => ?tableStore,
    fun s hdst hcap => ?hdrPack⟩
  case ampMap =>
    exact exec_checkError (by rfl) (operandChecks_pass_of_legal hsrc hdst hapart)
      (capCheck_fails hcap)
  case lenAlign =>
    refine exec_checkError (by rfl) (operandChecks_pass_of_legal hsrc hdst hapart) ?_
    rw [firstFailing_cons, bne_iff_ne.2 halign, if_pos rfl]
  case ampUnmap =>
    refine exec_checkError (by rfl) (operandChecks_pass_of_legal hsrc hdst hapart) ?_
    rw [firstFailing_cons_passed (bne_eq_false_iff_eq.2 halign)]
    exact capCheck_fails hcap
  case tableStore =>
    refine exec_checkError (by rfl) (operandChecks_pass_of_dst rfl hdst) ?_
    rw [firstFailing_cons_passed (by rw [hvalid, Bool.not_true])]
    exact capCheck_fails hcap
  case hdrPack =>
    exact exec_checkError (by rfl) (operandChecks_pass_of_dst rfl hdst) (capCheck_fails hcap)

/-! ## AMP_MAP (R142) -/

/-- Settles O19: the one store of AMP_MAP is as long as RESULT_LEN says, which DST_CAP bounds. -/
theorem ampMapStoresAmplitudes : Obligations.AmpMapStoresAmplitudes := by
  intro s hsrc hdst hapart hcap
  have hlen : (s.srcBytes.flatMap fun b => c64Bytes (amp b)).length = 16 * s.srcLen.toNat := by
    rw [amplitudeBytes_length, srcBytes_length]
  have hfits : 16 * s.srcLen.toNat < 2 ^ 32 := hcap.trans_lt s.dstCap.isLt
  obtain ⟨t, hexec, hdone, hstored⟩ :=
    exec_stores (i := .ampMap) (by rfl) (operandChecks_pass_of_legal hsrc hdst hapart)
      (capCheck_passes hcap) rfl (lengths_fit hfits s.srcLen.isLt)
  exact ⟨t, hexec, hdone, hstored, hlen⟩

/-! ## AMP_UNMAP (R143) -/

theorem readBytes_drop_take {k m n : Nat} (h : k + m ≤ n) (s : State) (a : Nat) :
    ((s.readBytes a n).drop k).take m = s.readBytes (a + k) m := by
  refine List.ext_getElem ?_ fun i hi hi' => ?_
  · simp only [List.length_take, List.length_drop, readBytes_length]
    omega
  · rw [List.getElem_take, List.getElem_drop, readBytes_getElem, readBytes_getElem, Nat.add_assoc]

theorem c64List_getElem {n i : Nat} {bs : List Byte} (h : i < (c64List n bs).length) :
    (c64List n bs)[i] = c64OfBytes (bs.drop (16 * i)) := by
  induction n generalizing bs i with
  | zero => cases h
  | succ n ih =>
    cases i with
    | zero => rfl
    | succ i =>
      simp only [c64List, List.getElem_cons_succ, ih, List.drop_drop]
      congr 2
      omega

/-- Amplitude `i` of the source range is in its bytes `16 * i` to `16 * i + 15`. -/
theorem c64OfBytes_drop_srcBytes {s : State} {i : Nat} (h : 16 * i + 16 ≤ s.srcLen.toNat) :
    c64OfBytes (s.srcBytes.drop (16 * i)) =
      ⟨BitVec.ofNat 64 (leNat (s.readBytes (s.srcAddr.toNat + 16 * i) 8)),
       BitVec.ofNat 64 (leNat (s.readBytes (s.srcAddr.toNat + 16 * i + 8) 8))⟩ := by
  rw [c64OfBytes, List.drop_drop, State.srcBytes, readBytes_drop_take (by omega),
    readBytes_drop_take (by omega), ← Nat.add_assoc]

theorem MemoryHolds.readByte {t : State} {a i : Nat} {bs : List Byte} (h : MemoryHolds t a bs)
    (hi : i < bs.length) : t.readByte (a + i) = bs[i] := by
  rw [← readBytes_getElem (n := bs.length) (by rwa [readBytes_length])]
  exact List.getElem_of_eq h _

/-- Settles O20: byte `i` of the one store of AMP_UNMAP is `unamp` of amplitude `i` of the source. -/
theorem ampUnmapStoresBytes : Obligations.AmpUnmapStoresBytes := by
  intro s hsrc hdst hapart halign hcap
  have hfits : s.srcLen.toNat / 16 < 2 ^ 32 := hcap.trans_lt s.dstCap.isLt
  obtain ⟨t, hexec, hdone, hstored⟩ :=
    exec_stores (i := .ampUnmap) (by rfl) (operandChecks_pass_of_legal hsrc hdst hapart)
      ((firstFailing_cons_passed (bne_eq_false_iff_eq.2 halign)).trans (capCheck_passes hcap)) rfl
      (lengths_fit hfits s.srcLen.isLt)
  have hlen : ((c64List (s.srcLen.toNat / 16) s.srcBytes).map unamp).length =
      s.srcLen.toNat / 16 := by rw [List.length_map, c64List_length]
  refine ⟨t, _, hexec, hdone, hstored, hlen, fun i hi => ?_⟩
  rw [hstored.stored.readByte (by rwa [hlen]), List.getElem_map, c64List_getElem,
    c64OfBytes_drop_srcBytes (by omega)]

end Sys2Proof.Machine
end

section
/-! # The step count and the padded length (42_tensor_train.md R155)

`m` steps are enough exactly when `n ≤ 255 * 256^m`, with `m = 0` read as no step at all; every
clause of R155 is arithmetic on that one equivalence and on the rounding up of `c`. -/

namespace Sys2Proof.Machine

theorem ceilDiv_le_iff {a b c : Nat} (hb : 0 < b) : ceilDiv a b ≤ c ↔ a ≤ c * b := by
  rw [ceilDiv, Nat.div_le_iff_le_mul_add_pred hb, Nat.add_le_add_iff_right, Nat.mul_comm]

theorem le_ceilDiv_mul {b : Nat} (hb : 0 < b) (a : Nat) : a ≤ ceilDiv a b * b :=
  (ceilDiv_le_iff hb).1 le_rfl

theorem ceilDiv_mul_lt {b : Nat} (hb : 0 < b) (a : Nat) : ceilDiv a b * b < a + b := by
  have hle : ceilDiv a b * b ≤ a + (b - 1) := Nat.div_mul_le_self _ _
  omega

/-- The condition of the search, without the division. -/
theorem ceilDiv_lt_256_iff (n m : Nat) : ceilDiv n (256 ^ m) < 256 ↔ n ≤ 255 * 256 ^ m := by
  rw [Nat.lt_succ_iff, ceilDiv_le_iff (by positivity)]

theorem fits_mono {n k m : Nat} (hkm : k ≤ m) (h : n ≤ 255 * 256 ^ k) : n ≤ 255 * 256 ^ m :=
  h.trans (Nat.mul_le_mul_left _ (Nat.pow_le_pow_right (by decide) hkm))

/-- As many factors of 256 as `n` has bits are more than enough. -/
theorem le_mul_pow_log2 (n : Nat) : n ≤ 255 * 256 ^ (n.log2 + 1) := calc
  n ≤ 2 ^ (n.log2 + 1) := Nat.lt_log2_self.le
  _ ≤ 256 ^ (n.log2 + 1) := Nat.pow_le_pow_left (by decide) _
  _ ≤ 255 * 256 ^ (n.log2 + 1) := Nat.le_mul_of_pos_left _ (by decide)

theorem le_leastStep (n fuel m0 : Nat) : m0 ≤ leastStep n fuel m0 := by
  induction fuel generalizing m0 with
  | zero => exact le_rfl
  | succ fuel ih =>
    rw [leastStep]
    split
    · exact le_rfl
    · exact (Nat.le_succ m0).trans (ih (m0 + 1))

/-- With enough fuel the search stops at the first count that fits. -/
theorem leastStep_le_iff {n fuel m0 k : Nat} (hfuel : n ≤ 255 * 256 ^ (m0 + fuel)) (hk : m0 ≤ k) :
    leastStep n fuel m0 ≤ k ↔ n ≤ 255 * 256 ^ k := by
  induction fuel generalizing m0 with
  | zero => exact iff_of_true hk (fits_mono hk hfuel)
  | succ fuel ih =>
    rw [leastStep]
    split
    next hfits => exact iff_of_true hk (fits_mono hk ((ceilDiv_lt_256_iff n m0).1 hfits))
    next hfits =>
      rcases hk.eq_or_lt with rfl | hlt
      · exact iff_of_false (Nat.not_le.2 (le_leastStep n fuel (m0 + 1)))
          (mt (ceilDiv_lt_256_iff n m0).2 hfits)
      · exact ih (by rwa [Nat.add_right_comm]) hlt

/-- The step count is the least number that fits. -/
theorem stepCount_le_iff {n k : Nat} : stepCount n ≤ k ↔ n ≤ 255 * 256 ^ k := by
  rw [stepCount]
  split
  next hsmall => exact iff_of_true k.zero_le (fits_mono k.zero_le (by omega))
  next hlarge =>
    rcases k.eq_zero_or_pos with rfl | hk
    · exact iff_of_false (Nat.not_le.2 (le_leastStep n _ 1)) (by omega)
    · exact leastStep_le_iff (fits_mono (Nat.le_add_left _ 1) (le_mul_pow_log2 n)) hk

theorem lastFactor_le (n : Nat) : lastFactor n ≤ 255 :=
  (ceilDiv_le_iff (by positivity)).2 (stepCount_le_iff.1 le_rfl)

theorem le_paddedCount (n : Nat) : n ≤ paddedCount n := le_ceilDiv_mul (by positivity) n

theorem paddedCount_lt (n : Nat) : paddedCount n < n + 256 ^ stepCount n :=
  ceilDiv_mul_lt (by positivity) n

theorem lastFactor_pos {n : Nat} (hn : 1 ≤ n) : 1 ≤ lastFactor n := by
  refine Nat.pos_of_ne_zero fun h0 => ?_
  have hle := le_paddedCount n
  rw [paddedCount, h0, Nat.zero_mul] at hle
  omega

/-- Up to 255 bytes there is no step and no padding. -/
theorem stepCount_of_lt {n : Nat} (hn : n < 256) : stepCount n = 0 :=
  Nat.le_zero.1 (stepCount_le_iff.2 (by omega))

theorem lastFactor_of_lt {n : Nat} (hn : n < 256) : lastFactor n = n := by
  simp [lastFactor, ceilDiv, stepCount_of_lt hn]

theorem paddedCount_of_lt {n : Nat} (hn : n < 256) : paddedCount n = n := by
  rw [paddedCount, stepCount_of_lt hn, lastFactor_of_lt hn, Nat.pow_zero, Nat.mul_one]

/-- The step counts of R155 by length. -/
theorem stepCount_eq_succ_iff {n k : Nat} :
    stepCount n = k + 1 ↔ 255 * 256 ^ k < n ∧ n ≤ 255 * 256 ^ (k + 1) := by
  rw [← stepCount_le_iff, ← Nat.not_le, ← stepCount_le_iff]
  omega

/-- Settles O48: every clause is read off `stepCount_le_iff` or the rounding up of the last
factor. -/
theorem paddedLengthIsLeast : Obligations.PaddedLengthIsLeast := by
  intro n hn
  have hpad := le_paddedCount n
  have hlt := paddedCount_lt n
  refine ⟨rfl, rfl, lastFactor_pos hn, lastFactor_le n, hpad, by omega,
    fun h => ⟨stepCount_of_lt h, lastFactor_of_lt h⟩, fun h => ⟨?pos, fun m _ hm => ?least⟩,
    fun hlo hhi => stepCount_eq_succ_iff.2 ⟨?_, ?_⟩,
    fun hlo hhi => stepCount_eq_succ_iff.2 ⟨?_, ?_⟩,
    fun hlo hhi => stepCount_eq_succ_iff.2 ⟨?_, ?_⟩⟩
  case pos =>
    have hzero : ¬ stepCount n ≤ 0 := mt stepCount_le_iff.1 (by omega)
    omega
  case least =>
    exact Nat.not_lt.1 fun h =>
      hm.not_ge (stepCount_le_iff.2 ((ceilDiv_lt_256_iff n m).1 h))
  all_goals omega

end Sys2Proof.Machine
end

section
/-! # The ranks kept (42_tensor_train.md R157, R162)

A kept rank is capped by MAX_RANK, 256 and the number of singular values, with a floor of 1; every
bond of a decomposition is a kept rank. -/

namespace Sys2Proof.Machine

theorem significantCount_le (m : CMat) (eps : F64) :
    significantCount m eps ≤ m.rows ∧ significantCount m eps ≤ m.cols := by
  obtain ⟨hlen, -⟩ := singularValues_contract m
  exact Nat.le_min.1 (hlen ▸ List.countP_le_length)

section
variable (maxRank : Nat) (eps : F64) (m : CMat)

theorem one_le_rankKept : 1 ≤ rankKept maxRank eps m := le_max_left _ _

theorem rankKept_le_256 : rankKept maxRank eps m ≤ 256 :=
  max_le (by decide) ((min_le_right _ _).trans (min_le_left _ _))

theorem rankKept_le_max : rankKept maxRank eps m ≤ max 1 maxRank :=
  max_le_max_left _ (min_le_left _ _)

theorem rankKept_le_significant : rankKept maxRank eps m ≤ max 1 (significantCount m eps) :=
  max_le_max_left _ ((min_le_right _ _).trans (min_le_right _ _))

theorem exists_rankKept_of_mem_bonds {steps r c : Nat} {rem : List C64} {b : Nat}
    (hb : b ∈ (decomposeFrom maxRank eps steps r c rem).1) :
    ∃ unfolding, b = rankKept maxRank eps unfolding := by
  induction steps generalizing r c rem with
  | zero => cases hb
  | succ steps ih =>
    rcases List.mem_cons.1 hb with rfl | hrest
    · exact ⟨_, rfl⟩
    · exact ih hrest

/-- R162 without MAX_RANK: the floor and the cap by `PHYS_DIM` hold whatever it is. -/
theorem decomposition_bond_range {src : List Byte} {b : Nat}
    (hb : b ∈ (decomposition maxRank eps src).1) : 1 ≤ b ∧ b ≤ 256 := by
  obtain ⟨u, rfl⟩ := exists_rankKept_of_mem_bonds maxRank eps hb
  exact ⟨one_le_rankKept maxRank eps u, rankKept_le_256 maxRank eps u⟩

end

/-- Settles O49: the caps are those of `rankKept`, and a bond is a kept rank. -/
theorem bondDimensionsAreBounded : Obligations.BondDimensionsAreBounded := by
  intro maxRank eps hmax
  have hle (m : CMat) : rankKept maxRank eps m ≤ maxRank :=
    (rankKept_le_max maxRank eps m).trans (max_le hmax le_rfl)
  refine ⟨fun m hrows hcols => ?_, fun src b _ hb => ?_⟩
  · have hsig := rankKept_le_significant maxRank eps m
    obtain ⟨hsigRows, hsigCols⟩ := significantCount_le m eps
    exact ⟨one_le_rankKept maxRank eps m, hle m, rankKept_le_256 maxRank eps m, by omega, by omega⟩
  · obtain ⟨u, hu⟩ := exists_rankKept_of_mem_bonds maxRank eps hb
    obtain ⟨hpos, hcap⟩ := decomposition_bond_range maxRank eps hb
    exact ⟨hpos, hu ▸ hle u, hcap⟩

end Sys2Proof.Machine
end

section
/-! # Legal shapes and the size of a chain (42_tensor_train.md R150, R152, R163)

The four cases of R163 are two once the outer bond 1 is written in front of the bond dimensions:
every tensor but the last has 256 rows for each unit of the bond on its left, and the last is a
column. -/

namespace Sys2Proof.Machine

/-! ## Sizes -/

theorem tensorBytes_length {t : CMat} (h : t.entries.length = t.rows * t.cols) :
    (tensorBytes t).length = 8 + 16 * (t.rows * t.cols) := by
  rw [tensorBytes, List.length_append, List.length_append, leBytes_length, leBytes_length,
    flatMap_c64Bytes_length, h]

theorem flatMap_leBytes_length (n : Nat) (vs : List Nat) :
    (vs.flatMap (leBytes n)).length = n * vs.length := by
  simp [List.length_flatMap, Nat.mul_comm]

/-- Settles O50: the two fixed fields, the bonds, and the tensors one by one. -/
theorem serializedChainSize : Obligations.SerializedChainSize := by
  intro bonds ts _ hbonds hentries
  have htensors : (ts.flatMap tensorBytes).length =
      (ts.map fun x => 8 + 16 * (x.rows * x.cols)).sum := by
    rw [List.length_flatMap]
    exact congrArg List.sum (List.map_congr_left fun x hx => tensorBytes_length (hentries x hx))
  rw [chainBytes, List.length_append, List.length_append, List.length_append, leBytes_length,
    leBytes_length, flatMap_leBytes_length, htensors, hbonds]

/-! ## Legal shapes by place -/

/-- The bond on the left of tensor `i`; the outer bond is 1. -/
def leftBond (bonds : List Nat) (i : Nat) : Nat := (1 :: bonds).getD i 0

@[simp] theorem leftBond_zero (bonds : List Nat) : leftBond bonds 0 = 1 := rfl

@[simp] theorem leftBond_succ (bonds : List Nat) (i : Nat) :
    leftBond bonds (i + 1) = bonds.getD i 0 := rfl

/-- There are `tc - 1` bonds, each in 1..256 (R163). -/
structure LegalBonds (tc : Nat) (bonds : List Nat) : Prop where
  count : bonds.length = tc - 1
  range : ∀ b ∈ bonds, 1 ≤ b ∧ b ≤ 256

theorem LegalBonds.leftBond_range {tc i : Nat} {bonds : List Nat} (h : LegalBonds tc bonds)
    (hi : i < tc) : 1 ≤ leftBond bonds i ∧ leftBond bonds i ≤ 256 := by
  cases i with
  | zero => simp
  | succ i =>
    have hlt : i < bonds.length := by rw [h.count]; omega
    rw [leftBond_succ, List.getD_eq_getElem _ _ hlt]
    exact h.range _ (List.getElem_mem hlt)

section
variable {tc i rows cols : Nat} {bonds : List Nat}

/-- The first and the middle tensors. -/
theorem legalShape_inner_iff (hi : i + 1 < tc) :
    legalShape tc bonds i rows cols = true ↔
      rows = 256 * leftBond bonds i ∧ cols = leftBond bonds (i + 1) := by
  rw [legalShape, if_neg (by omega : tc ≠ 1)]
  cases i with
  | zero => simp
  | succ i => simp [show i + 1 < tc - 1 by omega]

/-- The last tensor, the only one included. -/
theorem legalShape_last_iff (hi : i + 1 = tc) :
    legalShape tc bonds i rows cols = true ↔
      cols = 1 ∧ rows % leftBond bonds i = 0 ∧
        1 ≤ rows / leftBond bonds i ∧ rows / leftBond bonds i ≤ 256 := by
  subst hi
  rw [legalShape]
  cases i with
  | zero => simp [Nat.mod_one, and_comm]
  | succ i => simp [and_assoc]

/-- Legal sizes fit the fields they are stored in. -/
theorem legalShape_fits (hbonds : LegalBonds tc bonds) (hi : i < tc)
    (h : legalShape tc bonds i rows cols = true) : rows < 2 ^ 32 ∧ cols < 2 ^ 32 := by
  obtain ⟨hpos, hleft⟩ := hbonds.leftBond_range hi
  rcases (Nat.succ_le_of_lt hi).eq_or_lt with hlast | hinner
  · obtain ⟨rfl, hmod, -, hdiv⟩ := (legalShape_last_iff hlast).1 h
    have hrows : rows ≤ 256 * 256 := calc
      rows = leftBond bonds i * (rows / leftBond bonds i) :=
        (Nat.mul_div_cancel' (Nat.dvd_of_mod_eq_zero hmod)).symm
      _ ≤ 256 * 256 := Nat.mul_le_mul hleft hdiv
    exact ⟨by omega, by decide⟩
  · obtain ⟨rfl, rfl⟩ := (legalShape_inner_iff hinner).1 h
    obtain ⟨-, hright⟩ := hbonds.leftBond_range (i := i + 1) hinner
    exact ⟨by omega, by omega⟩

end

/-! ## Legal tensors one by one -/

/-- Tensor `i` of a chain: a legal shape and all its entries (R163, R164). -/
structure LegalTensor (tc : Nat) (bonds : List Nat) (i : Nat) (t : CMat) : Prop where
  shape : legalShape tc bonds i t.rows t.cols = true
  entries : t.entries.length = t.rows * t.cols

/-- The tensors from number `i` on are legal. -/
def LegalFrom (tc : Nat) (bonds : List Nat) : Nat → List CMat → Prop
  | _, [] => True
  | i, t :: ts => LegalTensor tc bonds i t ∧ LegalFrom tc bonds (i + 1) ts

theorem legalFrom_iff {tc i : Nat} {bonds : List Nat} {ts : List CMat} :
    LegalFrom tc bonds i ts ↔
      ∀ (j : Nat) (h : j < ts.length), LegalTensor tc bonds (i + j) ts[j] := by
  induction ts generalizing i with
  | nil => simp [LegalFrom]
  | cons t ts ih =>
    rw [LegalFrom, ih]
    refine ⟨fun ⟨ht, hts⟩ j hj => ?_, fun h => ⟨h 0 (Nat.succ_pos _), fun j hj => ?_⟩⟩
    · cases j with
      | zero => exact ht
      | succ j => exact Nat.succ_add_eq_add_succ i j ▸ hts j (Nat.lt_of_succ_lt_succ hj)
    · exact (Nat.succ_add_eq_add_succ i j).symm ▸ h (j + 1) (Nat.succ_lt_succ hj)

/-- The terms of the statements, tensor by tensor. -/
theorem legalTensors_iff {tc : Nat} {bonds : List Nat} {ts : List CMat} :
    LegalTensors tc bonds ts ↔ 1 ≤ tc ∧ LegalBonds tc bonds ∧ LegalFrom tc bonds 0 ts := by
  rw [legalFrom_iff]
  simp only [Nat.zero_add]
  constructor
  · rintro ⟨hpos, hcount, hrange, hshapes, hentries⟩
    exact ⟨hpos, ⟨hcount, hrange⟩, fun j hj => ⟨hshapes j hj, hentries _ (List.getElem_mem hj)⟩⟩
  · rintro ⟨hpos, ⟨hcount, hrange⟩, hts⟩
    refine ⟨hpos, hcount, hrange, fun j hj => (hts j hj).shape, fun t ht => ?_⟩
    obtain ⟨j, hj, rfl⟩ := List.getElem_of_mem ht
    exact (hts j hj).entries

end Sys2Proof.Machine
end

section
/-! # Parsing a chain (42_tensor_train.md R164, R165)

Each part of the parse gets two lemmas: what it answers on bytes that were serialized, whatever
follows them, and that bytes it accepts are the serialization of its answer. -/

namespace Sys2Proof.Machine

/-! ## Stored integers and entries -/

theorem drop_leBytes (n v : Nat) (rest : List Byte) : (leBytes n v ++ rest).drop n = rest :=
  List.drop_left' (leBytes_length n v)

theorem leNat_take_leBytes {n v : Nat} (h : v < 256 ^ n) (rest : List Byte) :
    leNat ((leBytes n v ++ rest).take n) = v := by
  rw [List.take_left' (leBytes_length n v), leNat_leBytes n v h]

theorem leBytes_leNat_take {n : Nat} {bs : List Byte} (h : n ≤ bs.length) :
    leBytes n (leNat (bs.take n)) = bs.take n := by
  have hle := leBytes_leNat (bs.take n)
  rwa [List.length_take_of_le h] at hle

/-- A field and what follows it are the bytes it was read from. -/
theorem leBytes_leNat_take_append_drop {n : Nat} {bs : List Byte} (h : n ≤ bs.length) :
    leBytes n (leNat (bs.take n)) ++ bs.drop n = bs := by
  rw [leBytes_leNat_take h, List.take_append_drop]

theorem c64Bytes_c64OfBytes {bs : List Byte} (h : 16 ≤ bs.length) :
    c64Bytes (c64OfBytes bs) = bs.take 16 := by
  have hfit (cs : List Byte) : leNat (cs.take 8) < 2 ^ 64 :=
    (leNat_lt _).trans_le (Nat.pow_le_pow_right (n := 256) (by decide) (List.length_take_le 8 cs))
  rw [c64Bytes, c64OfBytes, BitVec.toNat_ofNat, BitVec.toNat_ofNat, Nat.mod_eq_of_lt (hfit _),
    Nat.mod_eq_of_lt (hfit _), leBytes_leNat_take (by omega),
    leBytes_leNat_take (by rw [List.length_drop]; omega), ← List.take_add]

theorem flatMap_c64List {n : Nat} {bs : List Byte} (h : 16 * n ≤ bs.length) :
    (c64List n bs).flatMap c64Bytes = bs.take (16 * n) := by
  induction n generalizing bs with
  | zero => rfl
  | succ n ih =>
    rw [c64List, List.flatMap_cons, c64Bytes_c64OfBytes (by omega),
      ih (by rw [List.length_drop]; omega), ← List.take_add, Nat.mul_succ, Nat.add_comm]

/-! ## The bonds -/

theorem parseBonds_flatMap {bonds : List Nat} (h : ∀ b ∈ bonds, 1 ≤ b ∧ b ≤ 256)
    (rest : List Byte) :
    parseBonds bonds.length (bonds.flatMap (leBytes 4) ++ rest) = .ok (bonds, rest) := by
  induction bonds with
  | nil => rfl
  | cons b bonds ih =>
    obtain ⟨⟨hpos, hle⟩, hrest⟩ := List.forall_mem_cons.1 h
    rw [List.length_cons, List.flatMap_cons, List.append_assoc, parseBonds,
      leNat_take_leBytes (by omega), drop_leBytes, ih hrest]
    exact if_neg (by omega)

theorem parseBonds_eq_ok {n : Nat} {bs after : List Byte} {bonds : List Nat}
    (hlen : 4 * n ≤ bs.length) (h : parseBonds n bs = .ok (bonds, after)) :
    bonds.length = n ∧ (∀ b ∈ bonds, 1 ≤ b ∧ b ≤ 256) ∧
      bs = bonds.flatMap (leBytes 4) ++ after := by
  induction n generalizing bs bonds with
  | zero =>
    cases h
    simp
  | succ n ih =>
    simp only [parseBonds] at h
    split at h
    · cases h
    next hrange =>
      split at h
      · cases h
      next more _ hmore =>
        cases h
        obtain ⟨hcount, hbonds, hbytes⟩ := ih (by rw [List.length_drop]; omega) hmore
        refine ⟨congrArg (· + 1) hcount, List.forall_mem_cons.2 ⟨by omega, hbonds⟩, ?_⟩
        rw [List.flatMap_cons, List.append_assoc, ← hbytes,
          leBytes_leNat_take_append_drop (by omega)]

/-- A bond outside 1..256 anywhere. -/
theorem parseBonds_outOfRange {n i : Nat} {bs : List Byte} (hi : i < n)
    (h : leNat ((bs.drop (4 * i)).take 4) < 1 ∨ 256 < leNat ((bs.drop (4 * i)).take 4)) :
    parseBonds n bs = .error .chainShape := by
  induction n generalizing bs i with
  | zero => cases hi
  | succ n ih =>
    rw [parseBonds]
    cases i with
    | zero => exact if_pos h
    | succ i =>
      rw [Nat.mul_succ, Nat.add_comm, ← List.drop_drop] at h
      rw [ih (Nat.lt_of_succ_lt_succ hi) h]
      exact ite_self _

/-! ## The tensors -/

section
variable {tc n : Nat} {bonds : List Nat} {bs : List Byte}

theorem parseTensors_short (h : bs.length < 8) :
    parseTensors tc bonds (n + 1) bs = .error .chainTruncated := if_pos h

theorem parseTensors_badShape (h8 : 8 ≤ bs.length)
    (h : legalShape tc bonds (tc - (n + 1)) (leNat (bs.take 4)) (leNat ((bs.drop 4).take 4)) =
      false) : parseTensors tc bonds (n + 1) bs = .error .chainShape := by
  rw [parseTensors, if_neg (Nat.not_lt.2 h8)]
  exact if_pos h

theorem parseTensors_missingEntries (h8 : 8 ≤ bs.length)
    (hshape : legalShape tc bonds (tc - (n + 1)) (leNat (bs.take 4))
      (leNat ((bs.drop 4).take 4)) = true)
    (h : bs.length - 8 < 16 * leNat (bs.take 4) * leNat ((bs.drop 4).take 4)) :
    parseTensors tc bonds (n + 1) bs = .error .chainTruncated := by
  rw [parseTensors, if_neg (Nat.not_lt.2 h8)]
  exact (if_neg (by simp [hshape])).trans (if_pos (by rwa [List.length_drop]))

end

section
variable {tc : Nat} {bonds : List Nat} (hbonds : LegalBonds tc bonds)
include hbonds

theorem parseTensors_tensorBytes {n : Nat} {t : CMat} (hn : n + 1 ≤ tc)
    (ht : LegalTensor tc bonds (tc - (n + 1)) t) (rest : List Byte) :
    parseTensors tc bonds (n + 1) (tensorBytes t ++ rest) =
      (parseTensors tc bonds n rest).map fun p => (t :: p.1, p.2) := by
  obtain ⟨hrows, hcols⟩ := legalShape_fits hbonds (by omega) ht.shape
  have hsize : 16 * t.rows * t.cols = (t.entries.flatMap c64Bytes).length := by
    rw [flatMap_c64Bytes_length, ht.entries, Nat.mul_assoc]
  have hlen : ¬ (tensorBytes t ++ rest).length < 8 := by
    rw [List.length_append, tensorBytes_length ht.entries]
    omega
  have hbody : (tensorBytes t ++ rest).drop 8 = t.entries.flatMap c64Bytes ++ rest := by
    rw [show 8 = 4 + 4 from rfl, ← List.drop_drop, tensorBytes, List.append_assoc,
      List.append_assoc, drop_leBytes, drop_leBytes]
  have hrowField : leNat ((tensorBytes t ++ rest).take 4) = t.rows := by
    rw [tensorBytes, List.append_assoc, List.append_assoc, leNat_take_leBytes hrows]
  have hcolField : leNat (((tensorBytes t ++ rest).drop 4).take 4) = t.cols := by
    rw [tensorBytes, List.append_assoc, List.append_assoc, drop_leBytes, leNat_take_leBytes hcols]
  rw [parseTensors, if_neg hlen, hrowField, hcolField, hbody]
  dsimp only
  rw [hsize, List.drop_left, ← ht.entries, c64List_flatMap, if_neg (by simp [ht.shape]),
    if_neg (by simp)]
  cases parseTensors tc bonds n rest <;> rfl

/-- Legal tensors read back in order, whatever the parse makes of the bytes after them. -/
theorem parseTensors_flatMap {i n : Nat} {ts : List CMat} (hts : LegalFrom tc bonds i ts)
    (hn : i + (ts.length + n) = tc) (rest : List Byte) :
    parseTensors tc bonds (ts.length + n) (ts.flatMap tensorBytes ++ rest) =
      (parseTensors tc bonds n rest).map fun p => (ts ++ p.1, p.2) := by
  induction ts generalizing i with
  | nil =>
    rw [List.length_nil, Nat.zero_add, List.flatMap_nil, List.nil_append]
    cases parseTensors tc bonds n rest <;> rfl
  | cons t ts ih =>
    obtain ⟨ht, hrest⟩ := hts
    rw [List.length_cons, Nat.add_right_comm] at hn ⊢
    have hi : tc - (ts.length + n + 1) = i := by omega
    rw [List.flatMap_cons, List.append_assoc,
      parseTensors_tensorBytes hbonds (by omega) (hi.symm ▸ ht), ih hrest (by omega)]
    cases parseTensors tc bonds n rest <;> rfl

end

/-- What the parse of one tensor accepts. -/
theorem tensorBytes_of_fields {bs : List Byte} {rows cols : Nat} (h8 : 8 ≤ bs.length)
    (hrows : rows = leNat (bs.take 4)) (hcols : cols = leNat ((bs.drop 4).take 4))
    (hentries : 16 * rows * cols ≤ (bs.drop 8).length) :
    tensorBytes ⟨rows, cols, c64List (rows * cols) (bs.drop 8)⟩ ++
      (bs.drop 8).drop (16 * rows * cols) = bs := by
  subst hrows hcols
  rw [Nat.mul_assoc] at hentries ⊢
  rw [tensorBytes, flatMap_c64List hentries, List.append_assoc, List.append_assoc,
    List.take_append_drop, show bs.drop 8 = (bs.drop 4).drop 4 by rw [List.drop_drop],
    leBytes_leNat_take_append_drop (by rw [List.length_drop]; omega),
    leBytes_leNat_take_append_drop (by omega)]

theorem parseTensors_eq_ok {tc n : Nat} {bonds : List Nat} {bs after : List Byte} {ts : List CMat}
    (hn : n ≤ tc) (h : parseTensors tc bonds n bs = .ok (ts, after)) :
    ts.length = n ∧ LegalFrom tc bonds (tc - n) ts ∧ bs = ts.flatMap tensorBytes ++ after := by
  induction n generalizing bs ts with
  | zero =>
    cases h
    simp [LegalFrom]
  | succ n ih =>
    simp only [parseTensors] at h
    split at h
    · cases h
    split at h
    · cases h
    next h8 hshape =>
      split at h
      · cases h
      next hentries =>
        split at h
        · cases h
        next more _ hmore =>
          cases h
          obtain ⟨hcount, hlegal, hbytes⟩ := ih (by omega) hmore
          refine ⟨congrArg (· + 1) hcount, ⟨⟨?_, c64List_length _ _⟩, ?_⟩, ?_⟩
          · exact Bool.not_eq_false _ ▸ hshape
          · rwa [show tc - (n + 1) + 1 = tc - n by omega]
          · rw [List.flatMap_cons, List.append_assoc, ← hbytes,
              tensorBytes_of_fields (Nat.not_lt.1 h8) rfl rfl (Nat.not_lt.1 hentries)]

/-! ## The whole chain -/

/-- The end of the parse: the padded length, and the bytes used of `total` (R165). -/
def finishChain (bonds : List Nat) (total : Nat) (p : List CMat × List Byte) :
    Except ErrDetail Chain :=
  if 2 ^ 64 ≤ paddedLength bonds p.1 then .error .chainShape
  else .ok ⟨bonds, p.1, paddedLength bonds p.1, total - p.2.length⟩

/-- The first two fields pass their checks and the bonds' bytes are there (R164). -/
structure LegalHeader (src : List Byte) (tc : Nat) : Prop where
  fields : 8 ≤ src.length
  count : leNat (src.take 4) = tc
  positive : tc ≠ 0
  physDim : leNat ((src.drop 4).take 4) = 256
  bondBytes : 4 * (tc - 1) ≤ (src.drop 8).length

section
variable {src : List Byte} {tc : Nat}

theorem parseChain_of_legalHeader (h : LegalHeader src tc) :
    parseChain src = (parseBonds (tc - 1) (src.drop 8)).bind fun q =>
      (parseTensors tc q.1 tc q.2).bind (finishChain q.1 src.length) := by
  obtain ⟨hfields, rfl, hpos, hdim, hbytes⟩ := h
  rw [parseChain, if_neg (Nat.not_lt.2 hfields)]
  dsimp only
  rw [if_neg hpos, if_neg (by rw [hdim]; decide), if_neg (Nat.not_lt.2 hbytes)]
  cases parseBonds (leNat (src.take 4) - 1) (src.drop 8) with
  | error e => rfl
  | ok q =>
    simp only [Except.bind]
    cases parseTensors (leNat (src.take 4)) q.1 (leNat (src.take 4)) q.2 <;> rfl

/-- The checks before the bonds, in order. -/
theorem legalHeader_of_parseChain_eq_ok {c : Chain} (h : parseChain src = .ok c) :
    LegalHeader src (leNat (src.take 4)) := by
  simp only [parseChain] at h
  split at h
  · cases h
  split at h
  · cases h
  split at h
  · cases h
  split at h
  · cases h
  next hfields hpos hdim hbytes =>
    exact ⟨Nat.not_lt.1 hfields, rfl, hpos, Decidable.not_not.1 hdim, Nat.not_lt.1 hbytes⟩

end

/-- The fields before the tensors (R150). -/
def chainHead (tc : Nat) (bonds : List Nat) : List Byte :=
  leBytes 4 tc ++ leBytes 4 256 ++ bonds.flatMap (leBytes 4)

theorem chainBytes_eq (bonds : List Nat) (ts : List CMat) :
    chainBytes bonds ts = chainHead ts.length bonds ++ ts.flatMap tensorBytes := rfl

/-- The head is the bytes its fields were read from. -/
theorem eq_chainHead_append {src body : List Byte} {tc : Nat} {bonds : List Nat}
    (h : LegalHeader src tc) (hbonds : src.drop 8 = bonds.flatMap (leBytes 4) ++ body) :
    src = chainHead tc bonds ++ body := by
  obtain ⟨hfields, rfl, -, hdim, -⟩ := h
  rw [chainHead, List.append_assoc, ← hbonds, ← hdim, List.append_assoc,
    show src.drop 8 = (src.drop 4).drop 4 by rw [List.drop_drop],
    leBytes_leNat_take_append_drop (by rw [List.length_drop]; omega),
    leBytes_leNat_take_append_drop (by omega)]

section
variable {tc : Nat} {bonds : List Nat} (hpos : 1 ≤ tc) (htc : tc < 2 ^ 32)
  (hbonds : LegalBonds tc bonds)

theorem drop_chainHead (rest : List Byte) :
    (chainHead tc bonds ++ rest).drop 8 = bonds.flatMap (leBytes 4) ++ rest := by
  rw [show 8 = 4 + 4 from rfl, ← List.drop_drop, chainHead, List.append_assoc, List.append_assoc,
    drop_leBytes, drop_leBytes]

include hpos htc hbonds

theorem legalHeader_chainHead (rest : List Byte) :
    LegalHeader (chainHead tc bonds ++ rest) tc where
  fields := by simp [chainHead]; omega
  count := by
    rw [chainHead, List.append_assoc, List.append_assoc, leNat_take_leBytes htc]
  positive := by omega
  physDim := by
    rw [chainHead, List.append_assoc, List.append_assoc, drop_leBytes,
      leNat_take_leBytes (by decide)]
  bondBytes := by
    rw [drop_chainHead, List.length_append, flatMap_leBytes_length, hbonds.count]
    omega

theorem parseChain_chainHead (rest : List Byte) :
    parseChain (chainHead tc bonds ++ rest) =
      (parseTensors tc bonds tc rest).bind
        (finishChain bonds (chainHead tc bonds ++ rest).length) := by
  rw [parseChain_of_legalHeader (legalHeader_chainHead hpos htc hbonds rest), drop_chainHead,
    ← hbonds.count, parseBonds_flatMap hbonds.range]
  rfl

/-- Legal tensors before the end of the chain: the parse goes on with the next one. -/
theorem parseChain_of_next_error {ts : List CMat} {n : Nat} {rest : List Byte} {e : ErrDetail}
    (hts : LegalFrom tc bonds 0 ts) (hn : ts.length + n = tc)
    (h : parseTensors tc bonds n rest = .error e) :
    parseChain (chainHead tc bonds ++ (ts.flatMap tensorBytes ++ rest)) = .error e := by
  have htensors := parseTensors_flatMap hbonds hts (n := n) (by omega) rest
  rw [hn, h] at htensors
  rw [parseChain_chainHead hpos htc hbonds, htensors]
  rfl

end

/-- A legal chain parses to itself but for the check of its padded length. -/
theorem parseChain_chainBytes {bonds : List Nat} {ts : List CMat} (htc : ts.length < 2 ^ 32)
    (h : LegalTensors ts.length bonds ts) (rest : List Byte) :
    parseChain (chainBytes bonds ts ++ rest) =
      if 2 ^ 64 ≤ paddedLength bonds ts then .error .chainShape
      else .ok ⟨bonds, ts, paddedLength bonds ts, (chainBytes bonds ts).length⟩ := by
  obtain ⟨hpos, hbonds, hts⟩ := legalTensors_iff.1 h
  have htensors : parseTensors ts.length bonds ts.length (ts.flatMap tensorBytes ++ rest) =
      .ok (ts, rest) :=
    (parseTensors_flatMap hbonds hts (n := 0) (by omega) rest).trans
      (congrArg (fun l => Except.ok (l, rest)) (List.append_nil ts))
  rw [chainBytes_eq, List.append_assoc, parseChain_chainHead hpos htc hbonds, htensors]
  simp only [Except.bind, finishChain, ← List.append_assoc, ← chainBytes_eq, List.length_append,
    Nat.add_sub_cancel]

theorem except_bind_eq_ok {ε α β : Type} {x : Except ε α} {f : α → Except ε β} {b : β}
    (h : x.bind f = .ok b) : ∃ a, x = .ok a ∧ f a = .ok b := by
  cases x with
  | error e => cases h
  | ok a => exact ⟨a, rfl, h⟩

/-- Whatever parses is legal, and its serialization stands at the start of the bytes. -/
theorem parseChain_eq_ok {src : List Byte} {c : Chain} (h : parseChain src = .ok c) :
    LegalTensors c.tensors.length c.bonds c.tensors ∧
      c.padded = paddedLength c.bonds c.tensors ∧ c.padded < 2 ^ 64 ∧
      ∃ after, src = chainBytes c.bonds c.tensors ++ after ∧
        c.consumed = (chainBytes c.bonds c.tensors).length := by
  have hheader := legalHeader_of_parseChain_eq_ok h
  rw [parseChain_of_legalHeader hheader] at h
  obtain ⟨⟨bonds, body⟩, hparse, hrest⟩ := except_bind_eq_ok h
  obtain ⟨⟨ts, after⟩, htensors, hfinish⟩ := except_bind_eq_ok hrest
  obtain ⟨hcount, hrange, hbondBytes⟩ := parseBonds_eq_ok hheader.bondBytes hparse
  obtain ⟨hlen, hlegal, htensorBytes⟩ := parseTensors_eq_ok le_rfl htensors
  have hsrc : src = chainBytes bonds ts ++ after := by
    rw [chainBytes_eq, List.append_assoc, ← htensorBytes, hlen]
    exact eq_chainHead_append hheader hbondBytes
  rw [Nat.sub_self, ← hlen] at hlegal
  rw [← hlen] at hcount
  simp only [finishChain] at hfinish
  split at hfinish
  · cases hfinish
  next hpadded =>
    cases hfinish
    exact ⟨legalTensors_iff.2 ⟨Nat.pos_of_ne_zero (hlen ▸ hheader.positive), ⟨hcount, hrange⟩,
      hlegal⟩, rfl, Nat.not_le.1 hpadded, after, hsrc,
      by simp only [hsrc, List.length_append, Nat.add_sub_cancel]⟩

/-! ## The checks in order -/

theorem parseChain_header_errors (src : List Byte) :
    (src.length < 8 → parseChain src = .error .chainTruncated) ∧
    (8 ≤ src.length → leNat (src.take 4) = 0 → parseChain src = .error .chainShape) ∧
    (8 ≤ src.length → leNat (src.take 4) ≠ 0 → leNat ((src.drop 4).take 4) ≠ 256 →
      parseChain src = .error .physDim) ∧
    (8 ≤ src.length → leNat (src.take 4) ≠ 0 → leNat ((src.drop 4).take 4) = 256 →
      src.length - 8 < 4 * (leNat (src.take 4) - 1) →
      parseChain src = .error .chainTruncated) := by
  refine ⟨fun h => if_pos h, fun h8 hzero => ?_, fun h8 hpos hdim => ?_,
    fun h8 hpos hdim hshort => ?_⟩
  all_goals
    rw [parseChain, if_neg (Nat.not_lt.2 h8)]
    dsimp only
  · exact if_pos hzero
  · exact (if_neg hpos).trans (if_pos hdim)
  · rw [if_neg hpos, if_neg (by rw [hdim]; decide), if_pos (by rwa [List.length_drop])]

/-- Settles O45: the header by its checks, the rest by the lemmas on serialized and on accepted
bytes. -/
theorem chainHeaderChecksInOrder : Obligations.ChainHeaderChecksInOrder := by
  refine ⟨fun src => ?header, ?next, fun bonds ts rest htc hlegal => ?legal, fun src c h => ?parsed⟩
  case header =>
    obtain ⟨hshort, hzero, hdim, hbondBytes⟩ := parseChain_header_errors src
    refine ⟨hshort, hzero, hdim, hbondBytes, ?_⟩
    rintro i b hpos hdim hlen hi rfl hrange
    have hheader : LegalHeader src (leNat (src.take 4)) :=
      ⟨by omega, rfl, hpos, hdim, by rw [List.length_drop]; omega⟩
    rw [← List.drop_drop] at hrange
    rw [parseChain_of_legalHeader hheader, parseBonds_outOfRange hi hrange]
    rfl
  case next =>
    rintro tc rows cols bonds ts rest src htc hlt hlegal rfl rfl rfl
    obtain ⟨hpos, hbonds, hts⟩ := legalTensors_iff.1 hlegal
    obtain ⟨n, hn⟩ : ∃ n, ts.length + (n + 1) = tc := ⟨tc - ts.length - 1, by omega⟩
    have hindex : ts.length = tc - (n + 1) := by omega
    have hnext {e : ErrDetail} :=
      parseChain_of_next_error hpos htc hbonds (e := e) hts hn (rest := rest)
    rw [List.append_assoc _ _ rest, hindex]
    exact ⟨fun h => hnext (parseTensors_short h),
      fun h8 h => hnext (parseTensors_badShape h8 h),
      fun h8 hshape h => hnext (parseTensors_missingEntries h8 hshape h)⟩
  case legal =>
    rw [parseChain_chainBytes htc hlegal]
    exact ⟨fun h => if_pos h, fun h => if_neg (Nat.not_le.2 h)⟩
  case parsed =>
    obtain ⟨hlegal, hpadded, hfits, after, hsrc, hconsumed⟩ := parseChain_eq_ok h
    refine ⟨hlegal, ?_, ?_, hpadded, hfits⟩
    · rw [hconsumed, hsrc, List.length_append]
      exact Nat.le_add_right _ _
    · rw [hconsumed, hsrc, List.take_left]

end Sys2Proof.Machine
end

section
/-! # The decomposition as a chain (42_tensor_train.md R155, R159, R165)

The shapes of the decomposition depend on its ranks alone, so its chain is legal whatever SVD is,
and the last tensor's rows are the last factor times the last bond. -/

namespace Sys2Proof.Machine

/-! ## Its shapes -/

section
variable (maxRank : Nat) (eps : F64)

theorem decomposeFrom_bonds_length (m r c : Nat) (rem : List C64) :
    (decomposeFrom maxRank eps m r c rem).1.length = m := by
  induction m generalizing r c rem with
  | zero => rfl
  | succ m ih => exact congrArg (· + 1) (ih _ _ _)

theorem decomposeFrom_tensors_length (m r c : Nat) (rem : List C64) :
    (decomposeFrom maxRank eps m r c rem).2.length = m + 1 := by
  induction m generalizing r c rem with
  | zero => rfl
  | succ m ih => exact congrArg (· + 1) (ih _ _ _)

/-- Every step divides its columns exactly (R156). -/
theorem mul_pow_succ_div (f m : Nat) : f * 256 ^ (m + 1) / 256 = f * 256 ^ m := by
  rw [Nat.pow_succ, ← Nat.mul_assoc, Nat.mul_div_cancel _ (by decide)]

/-- From a remainder with all its entries, the rest of the decomposition is legal in every chain
whose bonds go on with its bonds. -/
theorem legalFrom_decomposeFrom {bonds : List Nat} {i m r f : Nat} {rem : List C64} (hr : 1 ≤ r)
    (hf : 1 ≤ f ∧ f ≤ 256) (hrem : rem.length = r * (f * 256 ^ m)) (hleft : leftBond bonds i = r)
    (hbonds : bonds.drop i = (decomposeFrom maxRank eps m r (f * 256 ^ m) rem).1) :
    LegalFrom (i + m + 1) bonds i (decomposeFrom maxRank eps m r (f * 256 ^ m) rem).2 := by
  induction m generalizing i r rem with
  | zero =>
    rw [Nat.pow_zero, Nat.mul_one] at hrem ⊢
    refine ⟨⟨(legalShape_last_iff (by omega)).2 ?_, ?_⟩, trivial⟩
    · rw [hleft, Nat.mul_mod_right, Nat.mul_div_cancel_left _ hr]
      exact ⟨rfl, rfl, hf⟩
    · rw [hrem, Nat.mul_one]
  | succ m ih =>
    simp only [decomposeFrom, mul_pow_succ_div] at hbonds ⊢
    generalize hk : rankKept maxRank eps ⟨r * 256, f * 256 ^ m, rem⟩ = k at hbonds ⊢
    have hright : leftBond bonds (i + 1) = k := by
      rw [leftBond_succ, List.getD_eq_getElem?_getD, ← List.head?_drop, hbonds]
      rfl
    refine ⟨⟨(legalShape_inner_iff (by omega)).2 ⟨?_, hright.symm⟩,
      leftTensor_entries_length _ _⟩, ?_⟩
    · rw [hleft]
      exact Nat.mul_comm r 256
    · rw [Nat.add_right_comm i (m + 1) 1, ← Nat.add_assoc]
      refine ih (hk ▸ one_le_rankKept _ _ _) (nextRemainder_length _ _) hright ?_
      rw [← List.drop_drop, hbonds]
      rfl

/-- The rows of the last tensor over the last bond are the last factor (R165). -/
theorem decomposeFrom_last_rows (m r f : Nat) (rem : List C64) :
    (decomposeFrom maxRank eps m r (f * 256 ^ m) rem).2.getLast?.map CMat.rows =
      some ((decomposeFrom maxRank eps m r (f * 256 ^ m) rem).1.getLast?.getD r * f) := by
  induction m generalizing r rem with
  | zero => simp [decomposeFrom]
  | succ m ih =>
    simp only [decomposeFrom, mul_pow_succ_div]
    generalize rankKept maxRank eps ⟨r * 256, f * 256 ^ m, rem⟩ = k
    obtain ⟨last, hlast, hrows⟩ :=
      Option.map_eq_some_iff.1 (ih k (nextRemainder ⟨r * 256, _, rem⟩ k))
    rw [List.getLast?_cons, List.getLast?_cons, hlast]
    exact congrArg some hrows

/-! ## Its chain -/

theorem amplitudeVector_length (src : List Byte) :
    (amplitudeVector src).length = paddedCount src.length := by
  rw [amplitudeVector, List.length_append, List.length_map, List.length_replicate,
    Nat.add_sub_cancel' (le_paddedCount _)]

theorem decomposition_tensors_length (src : List Byte) :
    (decomposition maxRank eps src).2.length = stepCount src.length + 1 :=
  decomposeFrom_tensors_length _ _ _ _ _ _

theorem decomposition_legal {src : List Byte} (hsrc : src ≠ []) :
    LegalTensors (decomposition maxRank eps src).2.length (decomposition maxRank eps src).1
      (decomposition maxRank eps src).2 := by
  have hfactor := lastFactor_pos (List.length_pos_iff.2 hsrc)
  have hlast := lastFactor_le src.length
  have hrem : (amplitudeVector src).length = 1 * paddedCount src.length := by
    rw [amplitudeVector_length, Nat.one_mul]
  rw [legalTensors_iff, decomposition_tensors_length]
  refine ⟨Nat.le_add_left 1 _, ⟨decomposeFrom_bonds_length _ _ _ _ _ _,
    fun b hb => decomposition_bond_range maxRank eps hb⟩, ?_⟩
  have hlegal := legalFrom_decomposeFrom maxRank eps (i := 0) le_rfl ⟨hfactor, by omega⟩ hrem rfl
    List.drop_zero
  rwa [Nat.zero_add] at hlegal

theorem decomposition_paddedLength (src : List Byte) :
    paddedLength (decomposition maxRank eps src).1 (decomposition maxRank eps src).2 =
      paddedCount src.length := by
  have hlast : (decomposition maxRank eps src).2.getLast?.map CMat.rows =
      some ((decomposition maxRank eps src).1.getLast?.getD 1 * lastFactor src.length) :=
    decomposeFrom_last_rows maxRank eps _ 1 _ _
  have hpos : 1 ≤ (decomposition maxRank eps src).1.getLast?.getD 1 := by
    cases h : (decomposition maxRank eps src).1.getLast? with
    | none => exact le_rfl
    | some b => exact (decomposition_bond_range maxRank eps (List.mem_of_getLast? h)).1
  rw [paddedLength, hlast, decomposition_tensors_length, Nat.add_sub_cancel, Option.getD_some,
    Nat.mul_div_cancel_left _ hpos, Nat.mul_comm, paddedCount]

end

/-- A length that fits SRC_LEN takes at most four steps. -/
theorem stepCount_le_four {n : Nat} (hn : n < 2 ^ 32) : stepCount n ≤ 4 :=
  stepCount_le_iff.2 (by omega)

theorem paddedCount_lt_two_pow_64 {n : Nat} (hn : n < 2 ^ 32) : paddedCount n < 2 ^ 64 := calc
  paddedCount n < n + 256 ^ stepCount n := paddedCount_lt n
  _ ≤ n + 256 ^ 4 := Nat.add_le_add_left (Nat.pow_le_pow_right (by decide) (stepCount_le_four hn)) n
  _ < 2 ^ 64 := by omega

/-- Settles O51: the chain of a decomposition is legal, and its padded length is that of R155. -/
theorem decomposedChainParsesBack : Obligations.DecomposedChainParsesBack := by
  rintro maxRank eps src rest hsrc hlen d rfl
  have hsteps := stepCount_le_four hlen
  have hcount : (decomposition maxRank eps src).2.length < 2 ^ 32 := by
    rw [decomposition_tensors_length]
    omega
  rw [parseChain_chainBytes hcount (decomposition_legal maxRank eps hsrc),
    decomposition_paddedLength, if_neg (Nat.not_le.2 (paddedCount_lt_two_pow_64 hlen))]

end Sys2Proof.Machine
end

section
/-! # The contraction (42_tensor_train.md R165, R167)

Each product but the last makes the rows 256 times as many, and the last one by the last tensor's
rows over its left bond, so the vector has the padded length. -/

namespace Sys2Proof.Machine

@[simp] theorem contractStep_rows (x t : CMat) :
    (contractStep x t).rows = x.rows * (t.rows / x.cols) := rfl

@[simp] theorem contractStep_cols (x t : CMat) : (contractStep x t).cols = t.cols := rfl

theorem contractStep_entries_length (x t : CMat) :
    (contractStep x t).entries.length = x.rows * (t.rows / x.cols * t.cols) :=
  cmatmul_entries_length _ _

/-- The bond the padded length divides by is the one on the left of the last tensor. -/
theorem getLast?_getD_one (bonds : List Nat) :
    bonds.getLast?.getD 1 = leftBond bonds bonds.length := by
  cases bonds with
  | nil => rfl
  | cons b bonds =>
    rw [List.getLast?_eq_getElem?, List.length_cons, Nat.add_sub_cancel, leftBond_succ,
      List.getD_eq_getElem _ _ (Nat.lt_succ_self _), List.getElem?_eq_getElem (Nat.lt_succ_self _),
      Option.getD_some]

section
variable {tc : Nat} {bonds : List Nat} (hbonds : LegalBonds tc bonds)
include hbonds

theorem foldl_contractStep_length {i : Nat} {x t : CMat} {ts : List CMat}
    (hx : x.cols = leftBond bonds i) (h : LegalFrom tc bonds i (t :: ts))
    (hi : i + (ts.length + 1) = tc) :
    ((t :: ts).foldl contractStep x).entries.length =
      x.rows * (256 ^ ts.length *
        (((t :: ts).getLast?.map CMat.rows).getD 0 / leftBond bonds (tc - 1))) := by
  induction ts generalizing i x t with
  | nil =>
    obtain ⟨⟨hshape, -⟩, -⟩ := h
    obtain ⟨hcols, -⟩ := (legalShape_last_iff hi).1 hshape
    have hlast : tc - 1 = i := by rw [← hi]; rfl
    simp [contractStep_entries_length, hx, hcols, hlast]
  | cons u ts ih =>
    obtain ⟨⟨hshape, -⟩, hrest⟩ := h
    rw [List.length_cons] at hi
    obtain ⟨hrows, hcols⟩ := (legalShape_inner_iff (by omega)).1 hshape
    obtain ⟨hpos, -⟩ := hbonds.leftBond_range (i := i) (by omega)
    have hfactor : t.rows / x.cols = 256 := by
      rw [hrows, hx, Nat.mul_div_cancel _ hpos]
    rw [List.foldl_cons, ih (x := contractStep x t) hcols hrest (by omega), contractStep_rows,
      hfactor, List.getLast?_cons_cons, List.length_cons, Nat.pow_succ]
    ring

end

/-- The contraction of a legal chain has the padded length (R165, R167). -/
theorem contract_length {bonds : List Nat} {ts : List CMat}
    (h : LegalTensors ts.length bonds ts) : (contract ts).length = paddedLength bonds ts := by
  obtain ⟨hpos, hbonds, hts⟩ := legalTensors_iff.1 h
  rw [paddedLength, getLast?_getD_one, hbonds.count]
  cases ts with
  | nil => cases hpos
  | cons t ts =>
    obtain ⟨⟨hshape, hentries⟩, hrest⟩ := hts
    cases ts with
    | nil =>
      obtain ⟨hcols, -⟩ := (legalShape_last_iff rfl).1 hshape
      simp [contract, hentries, hcols]
    | cons u ts =>
      obtain ⟨hrows, hcols⟩ := (legalShape_inner_iff (Nat.succ_lt_succ (Nat.succ_pos _))).1 hshape
      rw [contract, foldl_contractStep_length hbonds hcols hrest (Nat.add_comm _ _), hrows,
        leftBond_zero, List.getLast?_cons_cons, List.length_cons, Nat.add_sub_cancel,
        List.length_cons, Nat.pow_succ]
      ring

end Sys2Proof.Machine
end

section
/-! # The tensor-train commands (42_tensor_train.md R160, R166, R168, R169)

Each command is an equation per outcome: its first failing check, or its store. -/

namespace Sys2Proof.Machine

/-! ## Frames and ORIG_LEN (10_state.md R42) -/

theorem HostRegsKept.completeSuccess {s t : State} (h : HostRegsKept s t) (r : Results) :
    HostRegsKept s (t.completeSuccess r) := { h with }

theorem HostRegsKept.completeFailure {s t : State} (h : HostRegsKept s t) (e : CmdError) :
    HostRegsKept s (t.completeFailure e) := { h with }

theorem origLen_setOrigLen {v : Nat} (s : State) (hv : v < 2 ^ 64) :
    (s.setOrigLen v).origLen = v := by
  have hlow : v % 2 ^ 32 < 2 ^ 32 := Nat.mod_lt _ (Nat.two_pow_pos 32)
  have hhigh : v / 2 ^ 32 % 2 ^ 32 = v / 2 ^ 32 := Nat.mod_eq_of_lt (Nat.div_lt_of_lt_mul hv)
  rw [State.origLen, State.setOrigLen_origLenLo, State.setOrigLen_origLenHi, BitVec.toNat_append,
    BitVec.toNat_ofNat, BitVec.toNat_ofNat, hhigh, ← Nat.shiftLeft_add_eq_or_of_lt hlow,
    Nat.shiftLeft_eq, Nat.div_add_mod']

/-! ## DECOMPOSE -/

/-- The checks of DECOMPOSE after its operand checks (R160). -/
def decomposeChecks (s : State) : List Check :=
  [ (s.maxRank == 0, ⟨.tensorDecomposition, .rankZero⟩),
    (s.srcLen == 0, ⟨.tensorDecomposition, .emptyInput⟩),
    (Config.workElems < paddedCount s.srcLen.toNat, ⟨.tensorDecomposition, .workLimit⟩) ]

theorem exec_decompose (s : State) :
    exec .decompose s =
      runCommand s (operandChecks .decompose s ++ decomposeChecks s) decomposeBody := rfl

section
variable {s : State}

theorem decomposeChecks_rankZero (h : s.maxRank = 0) :
    firstFailing (decomposeChecks s) = some ⟨.tensorDecomposition, .rankZero⟩ :=
  if_pos (beq_iff_eq.2 h)

variable (hrank : s.maxRank ≠ 0)
include hrank

theorem decomposeChecks_emptyInput (h : s.srcLen = 0) :
    firstFailing (decomposeChecks s) = some ⟨.tensorDecomposition, .emptyInput⟩ :=
  (firstFailing_cons_passed (beq_false_of_ne hrank)).trans (if_pos (beq_iff_eq.2 h))

variable (hlen : s.srcLen ≠ 0)
include hlen

theorem decomposeChecks_last :
    firstFailing (decomposeChecks s) =
      firstFailing [(decide (Config.workElems < paddedCount s.srcLen.toNat),
        ⟨.tensorDecomposition, .workLimit⟩)] :=
  (firstFailing_cons_passed (beq_false_of_ne hrank)).trans
    (firstFailing_cons_passed (beq_false_of_ne hlen))

theorem decomposeChecks_workLimit (h : Config.workElems < paddedCount s.srcLen.toNat) :
    firstFailing (decomposeChecks s) = some ⟨.tensorDecomposition, .workLimit⟩ :=
  (decomposeChecks_last hrank hlen).trans (capCheck_fails h)

theorem decomposeChecks_pass (h : paddedCount s.srcLen.toNat ≤ Config.workElems) :
    firstFailing (decomposeChecks s) = none :=
  (decomposeChecks_last hrank hlen).trans (capCheck_passes h)

end

/-- The serialized chain of the source bytes (R160). -/
def State.decomposedChain (s : State) : List Byte :=
  chainBytes (decomposition s.maxRank.toNat s.eps s.srcBytes).1
    (decomposition s.maxRank.toNat s.eps s.srcBytes).2

theorem decomposeBody_outCap {s : State} (h : s.dstCap.toNat < s.decomposedChain.length) :
    decomposeBody s = fail s.scrambleDst outCapError := if_pos h

theorem decomposeBody_fits {s : State} (h : s.decomposedChain.length ≤ s.dstCap.toNat) :
    decomposeBody s = succeed ((s.writeDst s.decomposedChain).setOrigLen s.srcLen.toNat)
      { resultLen := s.decomposedChain.length
        consumed := s.srcLen.toNat
        aux0 := (decomposition s.maxRank.toNat s.eps s.srcBytes).2.length
        aux1 := (decomposition s.maxRank.toNat s.eps s.srcBytes).1.foldl max 0 } :=
  if_neg (Nat.not_lt.2 h)

theorem decomposeBody_errDetail_ne_workLimit (s : State) :
    (decomposeBody s).complete.errDetail ≠ .workLimit := by
  rcases Nat.lt_or_ge s.dstCap.toNat s.decomposedChain.length with h | h
  · rw [decomposeBody_outCap h]
    exact nofun
  · rw [decomposeBody_fits h]
    exact nofun

theorem foldl_max_le {a b : Nat} {l : List Nat} (ha : a ≤ b) (hl : ∀ x ∈ l, x ≤ b) :
    l.foldl max a ≤ b := by
  induction l generalizing a with
  | nil => exact ha
  | cons x l ih =>
    obtain ⟨hx, hrest⟩ := List.forall_mem_cons.1 hl
    exact ih (max_le ha hx) hrest

theorem largestBond_le (maxRank : Nat) (eps : F64) (src : List Byte) :
    (decomposition maxRank eps src).1.foldl max 0 ≤ 256 :=
  foldl_max_le (Nat.zero_le _) fun _ hb => (decomposition_bond_range maxRank eps hb).2

section
variable {s : State} (hsrc : SrcInside s) (hdst : DstInside s) (hapart : RangesApart s)
include hsrc hdst hapart

theorem exec_decompose_passed (hrank : s.maxRank ≠ 0) (hlen : s.srcLen ≠ 0)
    (hwork : paddedCount s.srcLen.toNat ≤ Config.workElems) :
    exec .decompose s = .next (decomposeBody s).complete := by
  rw [exec_decompose, runCommand_append _ _ (operandChecks_pass_of_legal hsrc hdst hapart),
    runCommand_passed _ (decomposeChecks_pass hrank hlen hwork)]

theorem exec_decompose_checkError {e : CmdError} (h : firstFailing (decomposeChecks s) = some e) :
    ∃ t, exec .decompose s = .next t ∧ Failed t e ∧ OnlyCompletion s t :=
  exec_checkError (exec_decompose s) (operandChecks_pass_of_legal hsrc hdst hapart) h

end

/-- Settles O21: the checks pass, and the one store and ORIG_LEN are all that changes. -/
theorem decomposeStoresChain : Obligations.DecomposeStoresChain := by
  rintro s hsrc hdst hapart hrank hlen hwork d rfl hcap
  have hexec := exec_decompose_passed hsrc hdst hapart hrank hlen hwork
  rw [decomposeBody_fits hcap, decomposition_tensors_length, srcBytes_length] at hexec
  have hsteps := stepCount_le_four s.srcLen.isLt
  have hbond := largestBond_le s.maxRank.toNat s.eps s.srcBytes
  have hfits : s.srcLen.toNat < 2 ^ 32 := s.srcLen.isLt
  exact ⟨_, hexec, succeeded_completeSuccess _ _
      ⟨hcap.trans_lt s.dstCap.isLt, hfits, by dsimp only; omega, by dsimp only; omega⟩,
    (((HostRegsKept.refl s).writeDst _).setOrigLen _).completeSuccess _, rfl, ⟨rfl, rfl, rfl⟩, rfl,
    origLen_setOrigLen (s.writeDst s.decomposedChain) (hfits.trans (by decide)),
    memoryHolds_writeBytes s _ _, memoryKeptOutside_writeBytes s _ _⟩

/-- Settles O38: one failing check each, and the body for OUT_CAP. -/
theorem decomposeParameterErrors : Obligations.DecomposeParameterErrors := by
  intro s hsrc hdst hapart
  have hfails {e : CmdError} := exec_decompose_checkError hsrc hdst hapart (e := e)
  refine ⟨fun h => hfails (decomposeChecks_rankZero h),
    fun hrank h => hfails (decomposeChecks_emptyInput hrank h),
    fun hrank hlen => ?workLimit, ?outCap⟩
  case workLimit =>
    rcases Nat.lt_or_ge Config.workElems (paddedCount s.srcLen.toNat) with hlt | hle
    · obtain ⟨t, hexec, hfailed, honly⟩ := hfails (decomposeChecks_workLimit hrank hlen hlt)
      exact ⟨t, hexec, iff_of_true hfailed.detail hlt, fun _ => ⟨hfailed, honly⟩⟩
    · have hne := decomposeBody_errDetail_ne_workLimit s
      exact ⟨_, exec_decompose_passed hsrc hdst hapart hrank hlen hle,
        iff_of_false hne (Nat.not_lt.2 hle), fun h => absurd h hne⟩
  case outCap =>
    rintro hrank hlen hwork d rfl hcap
    have hexec := exec_decompose_passed hsrc hdst hapart hrank hlen hwork
    rw [decomposeBody_outCap hcap] at hexec
    exact ⟨_, hexec, failed_completeFailure _ _,
      (HostRegsKept.refl s).scrambleDst.completeFailure _, ⟨rfl, rfl⟩, rfl, ⟨rfl, rfl, rfl⟩,
      memoryKeptOutside_scrambleDst s⟩

/-! ## CHAIN_CHECK -/

section
variable {s : State} (hsrc : SrcInside s)
include hsrc

theorem operandChecks_chainCheck_pass : firstFailing (operandChecks .chainCheck s) = none :=
  (operandChecks_pass .chainCheck s).2 ⟨fun _ => hsrc, nofun, nofun⟩

theorem exec_chainCheck_error {d : ErrDetail} (h : parseChain s.srcBytes = .error d) :
    exec .chainCheck s = .next (s.completeFailure (decompressionFailed d)) := by
  rw [exec, execChainCheck, runCommand_operands _ (operandChecks_chainCheck_pass hsrc), h]
  rfl

theorem exec_chainCheck_ok {c : Chain} (h : parseChain s.srcBytes = .ok c) :
    exec .chainCheck s = .next (s.completeSuccess
      { consumed := c.consumed, aux0 := c.padded % 2 ^ 32, aux1 := c.padded / 2 ^ 32 }) := by
  rw [exec, execChainCheck, runCommand_operands _ (operandChecks_chainCheck_pass hsrc), h]
  rfl

end

/-- The results of a parsed chain fit their registers. -/
theorem chainResults_fit {s : State} {c : Chain} (h : parseChain s.srcBytes = .ok c) :
    c.consumed < 2 ^ 32 ∧ c.padded % 2 ^ 32 < 2 ^ 32 ∧ c.padded / 2 ^ 32 < 2 ^ 32 := by
  obtain ⟨-, -, hpadded, after, hsrc, hconsumed⟩ := parseChain_eq_ok h
  have hlen := congrArg List.length hsrc
  rw [srcBytes_length, List.length_append, ← hconsumed] at hlen
  have hlt := s.srcLen.isLt
  omega

/-- Settles O22: the parse is all CHAIN_CHECK does. -/
theorem chainCheckReportsChain : Obligations.ChainCheckReportsChain := by
  intro s c hsrc hparse
  obtain ⟨hconsumed, hlow, hhigh⟩ := chainResults_fit hparse
  exact ⟨_, exec_chainCheck_ok hsrc hparse,
    succeeded_completeSuccess _ _ ⟨Nat.two_pow_pos 32, hconsumed, hlow, hhigh⟩,
    onlyCompletion_completeSuccess s _⟩

/-! ## RECONSTRUCT -/

theorem reconstructChecks_workLimit {s : State} {c : Chain} (h : Config.workElems < c.padded) :
    firstFailing (reconstructChecks s c) = some (decompressionFailed .workLimit) := by
  simp [reconstructChecks, h]

section
variable {s : State} {c : Chain} (hwork : c.padded ≤ Config.workElems)
include hwork

theorem reconstructChecks_origLen (h : c.padded < s.origLen) :
    firstFailing (reconstructChecks s c) = some (decompressionFailed .origLen) := by
  simp [reconstructChecks, Nat.not_lt.2 hwork, h]

theorem reconstructChecks_outCap (horig : s.origLen ≤ c.padded) (h : s.dstCap.toNat < s.origLen) :
    firstFailing (reconstructChecks s c) = some outCapError := by
  simp [reconstructChecks, Nat.not_lt.2 hwork, Nat.not_lt.2 horig, h]

theorem reconstructChecks_pass (horig : s.origLen ≤ c.padded) (h : s.origLen ≤ s.dstCap.toNat) :
    firstFailing (reconstructChecks s c) = none := by
  simp [reconstructChecks, Nat.not_lt.2 hwork, Nat.not_lt.2 horig, Nat.not_lt.2 h]

end

section
variable {s : State} (hsrc : SrcInside s) (hdst : DstInside s) (hapart : RangesApart s)
include hsrc hdst hapart

theorem exec_reconstruct_error {d : ErrDetail} (h : parseChain s.srcBytes = .error d) :
    exec .reconstruct s = .next (s.completeFailure (decompressionFailed d)) := by
  rw [exec, execReconstruct,
    runCommand_operands _ (operandChecks_pass_of_legal hsrc hdst hapart), h]
  rfl

theorem exec_reconstruct_checkError {c : Chain} {e : CmdError} (h : parseChain s.srcBytes = .ok c)
    (hcheck : firstFailing (reconstructChecks s c) = some e) :
    exec .reconstruct s = .next (s.completeFailure e) := by
  rw [exec, execReconstruct,
    runCommand_operands _ (operandChecks_pass_of_legal hsrc hdst hapart), h]
  simp only [hcheck, complete_fail]

theorem exec_reconstruct_ok {c : Chain} (h : parseChain s.srcBytes = .ok c)
    (hcheck : firstFailing (reconstructChecks s c) = none) :
    exec .reconstruct s = .next ((s.writeDst (reconstructed c s.origLen)).completeSuccess
      { resultLen := s.origLen, consumed := c.consumed
        aux0 := c.padded % 2 ^ 32, aux1 := c.padded / 2 ^ 32 }) := by
  rw [exec, execReconstruct,
    runCommand_operands _ (operandChecks_pass_of_legal hsrc hdst hapart), h]
  simp only [hcheck, complete_succeed]

/-- With the padded length at most WORK_ELEMS, RECONSTRUCT completes without WORK_LIMIT. -/
theorem exec_reconstruct_errDetail_ne_workLimit {c : Chain} (h : parseChain s.srcBytes = .ok c)
    (hwork : c.padded ≤ Config.workElems) :
    ∃ t, exec .reconstruct s = .next t ∧ t.errDetail ≠ .workLimit := by
  rcases Nat.lt_or_ge c.padded s.origLen with horig | horig
  · exact ⟨_, exec_reconstruct_checkError hsrc hdst hapart h
      (reconstructChecks_origLen hwork horig), nofun⟩
  rcases Nat.lt_or_ge s.dstCap.toNat s.origLen with hcap | hcap
  · exact ⟨_, exec_reconstruct_checkError hsrc hdst hapart h
      (reconstructChecks_outCap hwork horig hcap), nofun⟩
  · exact ⟨_, exec_reconstruct_ok hsrc hdst hapart h
      (reconstructChecks_pass hwork horig hcap), nofun⟩

end

/-- A legal chain has at least ORIG_LEN values when the ORIG_LEN check passes (R167, R168). -/
theorem reconstructed_length {src : List Byte} {c : Chain} {n : Nat} (h : parseChain src = .ok c)
    (hn : n ≤ c.padded) : (reconstructed c n).length = n := by
  obtain ⟨hlegal, hpadded, -, -⟩ := parseChain_eq_ok h
  rw [reconstructed, List.length_map, List.length_take, contract_length hlegal, ← hpadded,
    Nat.min_eq_left hn]

/-- Settles O23: the checks pass, and the contraction is long enough for the one store. -/
theorem reconstructStoresBytes : Obligations.ReconstructStoresBytes := by
  intro s c hsrc hdst hapart hparse hwork horig hcap
  obtain ⟨hconsumed, hlow, hhigh⟩ := chainResults_fit hparse
  exact ⟨_, exec_reconstruct_ok hsrc hdst hapart hparse (reconstructChecks_pass hwork horig hcap),
    succeeded_completeSuccess _ _ ⟨hcap.trans_lt s.dstCap.isLt, hconsumed, hlow, hhigh⟩,
    onlyStored_writeDst s _ _, reconstructed_length hparse horig⟩

/-- Settles O44: the errors of the parse, then the checks on the parsed chain, each by its
equation. -/
theorem chainErrorsChangeNothing : Obligations.ChainErrorsChangeNothing := by
  refine ⟨fun s e hsrc hparse => ⟨parseChain_error hparse, ?_, fun hdst hapart => ?_⟩,
    fun s c hsrc hdst hapart hparse => ?workLimit,
    fun s c hsrc hdst hapart hparse hwork => ⟨fun horig => ?_, fun horig hcap => ?_⟩⟩
  · exact failed_and_onlyCompletion (exec_chainCheck_error hsrc hparse)
  · exact failed_and_onlyCompletion (exec_reconstruct_error hsrc hdst hapart hparse)
  case workLimit =>
    rcases Nat.lt_or_ge Config.workElems c.padded with hlt | hle
    · obtain ⟨t, hexec, hfailed, honly⟩ := failed_and_onlyCompletion
        (exec_reconstruct_checkError hsrc hdst hapart hparse (reconstructChecks_workLimit hlt))
      exact ⟨t, hexec, iff_of_true hfailed.detail hlt, fun _ => ⟨hfailed, honly⟩⟩
    · obtain ⟨t, hexec, hne⟩ :=
        exec_reconstruct_errDetail_ne_workLimit hsrc hdst hapart hparse hle
      exact ⟨t, hexec, iff_of_false hne (Nat.not_lt.2 hle), fun h => absurd h hne⟩
  · exact failed_and_onlyCompletion (exec_reconstruct_checkError hsrc hdst hapart hparse
      (reconstructChecks_origLen hwork horig))
  · exact failed_and_onlyCompletion (exec_reconstruct_checkError hsrc hdst hapart hparse
      (reconstructChecks_outCap hwork horig hcap))

/-! ## The round trip of short inputs (R169) -/

section
variable (maxRank : Nat) (eps : F64) {src : List Byte}

/-- Up to 255 bytes the chain holds the amplitudes themselves. -/
theorem decomposition_short (h : src.length < 256) :
    decomposition maxRank eps src = ([], [⟨src.length, 1, src.map amp⟩]) := by
  rw [decomposition, stepCount_of_lt h, amplitudeVector, paddedCount_of_lt h, Nat.sub_self,
    List.replicate_zero, List.append_nil, decomposeFrom, Nat.one_mul]

theorem decomposition_short_chain_length (h : src.length < 256) :
    (chainBytes (decomposition maxRank eps src).1 (decomposition maxRank eps src).2).length =
      16 + 16 * src.length := by
  rw [decomposition_short maxRank eps h,
    serializedChainSize [] _ (List.cons_ne_nil _ _) rfl (by simp)]
  simp
  omega

/-- Each amplitude maps back to its byte (41_amplitude.md R144). -/
theorem reconstructed_short (h : src.length < 256) (padded consumed : Nat) :
    reconstructed ⟨(decomposition maxRank eps src).1, (decomposition maxRank eps src).2, padded,
      consumed⟩ src.length = src := by
  have hinverse : unamp ∘ amp = id := funext fun b => by rw [Function.comp_apply, unamp_amp, id]
  rw [reconstructed, decomposition_short maxRank eps h, contract, List.foldl_nil,
    List.take_of_length_le (by rw [List.length_map]), List.map_map, hinverse, List.map_id]

end

/-- Settles O52: DECOMPOSE stores the chain, which parses back, and RECONSTRUCT stores what
`reconstructed_short` says. -/
theorem shortInputsRoundTripExactly : Obligations.ShortInputsRoundTripExactly := by
  intro s hsrc hdst hapart hrank hpos hle hcap
  have hlt : s.srcBytes.length < 256 := by rw [srcBytes_length]; omega
  have hwork : paddedCount s.srcLen.toNat ≤ Config.workElems := by
    have := workElems_ge
    rw [paddedCount_of_lt (by omega)]
    omega
  have hchain := decomposition_short_chain_length s.maxRank.toNat s.eps hlt
  rw [srcBytes_length] at hchain
  obtain ⟨t, hexec, hdone, hregs, -, -, -, horig, hholds, -⟩ :=
    decomposeStoresChain s hsrc hdst hapart hrank (by rintro h; simp [h] at hpos) hwork _ rfl
      (hchain.trans_le hcap)
  refine ⟨t, hexec, hdone.code, fun a c u hu hudst huapart hroom => ?_⟩
  have hresult : t.resultLen.toNat = s.decomposedChain.length := hdone.resultLen
  have hbytes : u.srcBytes = s.decomposedChain := calc
    u.srcBytes = t.readBytes s.dstAddr.toNat t.resultLen.toNat := by
      rw [hu]
      exact readBytes_congr rfl rfl _ _
    _ = s.decomposedChain := hresult ▸ hholds
  have hparse := decomposedChainParsesBack s.maxRank.toNat s.eps s.srcBytes []
    (List.ne_nil_of_length_pos (by rw [srcBytes_length]; omega)) (by omega) _ rfl
  rw [List.append_nil, paddedCount_of_lt hlt, srcBytes_length, ← State.decomposedChain,
    ← hbytes] at hparse
  have huorig : u.origLen = s.srcLen.toNat := by rw [hu]; exact horig
  have husrc : SrcInside u := by
    rw [hu]
    exact (Nat.add_le_add_left (hresult.trans_le (hchain.trans_le hcap)) _).trans hdst
  obtain ⟨v, hrun, hvdone, hvstored, -⟩ :=
    reconstructStoresBytes u _ husrc hudst huapart hparse
      (by have := workElems_ge; dsimp only; omega) huorig.le (by rw [huorig, hu]; exact hroom)
  have hback : ((contract (decomposition s.maxRank.toNat s.eps s.srcBytes).2).take u.origLen).map
      unamp = s.srcBytes := by
    rw [huorig, ← srcBytes_length]
    exact reconstructed_short _ _ hlt 0 0
  have husize : u.srcBytes.length = t.resultLen.toNat := by rw [srcBytes_length, hu]
  have hudstAddr : u.dstAddr = a := by rw [hu]
  refine ⟨v, hrun, { hvdone with
    resultLen := hvdone.resultLen.trans huorig
    consumed := hvdone.consumed.trans husize
    aux0 := hvdone.aux0.trans (Nat.mod_eq_of_lt s.srcLen.isLt)
    aux1 := hvdone.aux1.trans (Nat.div_eq_of_lt s.srcLen.isLt) }, ?_⟩
  exact hudstAddr ▸ hback ▸ hvstored.stored

end Sys2Proof.Machine
end

section
/-! # The histogram and table commands (43_huffman.md R190 to R201)

Each command is an equation per outcome; the frame of each is then read off the equation. The laws
of the tables themselves are those of the codes and of the tree above. -/

namespace Sys2Proof.Machine

/-! ## Checks and sizes -/

theorem operandChecks_pass_of_src {i : Instr} {s : State} (hi : usesDst i = false)
    (hsrc : SrcInside s) : firstFailing (operandChecks i s) = none :=
  (operandChecks_pass i s).2 ⟨fun _ => hsrc, by simp [hi], by simp [hi]⟩

theorem tableCheck_fails {s : State} (h : s.tableValid = false) (e : CmdError) (cs : List Check) :
    firstFailing ((!s.tableValid, e) :: cs) = some e := by
  rw [h, Bool.not_false, firstFailing_cons, if_pos rfl]

theorem tableCheck_passes {s : State} (h : s.tableValid = true) (e : CmdError) (cs : List Check) :
    firstFailing ((!s.tableValid, e) :: cs) = firstFailing cs :=
  firstFailing_cons_passed (by rw [h, Bool.not_true])

/-- A command whose checks all pass answers the completion of its body. -/
theorem exec_passed {i : Instr} {s : State} {checks : List Check} {body : State → Ended}
    (hexec : exec i s = runCommand s (operandChecks i s ++ checks) body)
    (hoperands : firstFailing (operandChecks i s) = none)
    (hchecks : firstFailing checks = none) : exec i s = .next (body s).complete := by
  rw [hexec, runCommand_append checks body hoperands, runCommand_passed body hchecks]

theorem codedCount_le (l : Table (BitVec 8)) : codedCount l ≤ 256 :=
  (List.length_filter_le _ _).trans_eq symbols_length

theorem maxLength_le (l : Table (BitVec 8)) : maxLength l ≤ 255 := by
  refine foldl_max_le (Nat.zero_le _) fun n hn => ?_
  obtain ⟨s, -, rfl⟩ := List.mem_map.1 hn
  exact entry_le_maxCodeLen l s

/-- The number of coded symbols and the largest length fit their result registers. -/
theorem tableResults_fit (l : Table (BitVec 8)) :
    codedCount l < 2 ^ 32 ∧ maxLength l < 2 ^ 32 :=
  ⟨(codedCount_le l).trans_lt (by decide), (maxLength_le l).trans_lt (by decide)⟩

/-! ## HIST_CLEAR and HIST_ACCUM (R190, R191) -/

theorem exec_histClear (s : State) :
    exec .histClear s = .next ((s.setFreq (.tabulate fun _ => 0)).completeSuccess {}) := by
  rw [exec, execHistClear, runCommand_operands _ (operandChecks_pass_of_no_ranges rfl rfl s),
    complete_succeed]

/-- Settles O24: FREQ is the only thing HIST_CLEAR writes besides its completion. -/
theorem histClearZeroesCounters : Obligations.HistClearZeroesCounters := fun s =>
  ⟨_, exec_histClear s, succeeded_completeSuccess _ {} (by decide),
    ((HostRegsKept.refl s).setFreq _).completeSuccess _, ⟨rfl, rfl⟩, .refl s, fun _ => rfl, rfl,
    fun x => Table.entry_tabulate _ x⟩

theorem histOverflows_iff {f : Table (BitVec 64)} {src : List Byte} :
    histOverflows f src = true ↔ ∃ x, 2 ^ 64 - 1 < (f.entry x).toNat + src.count x := by
  simp only [histOverflows, List.any_eq_true, mem_symbols, true_and, decide_eq_true_eq]

theorem histSum_entry_toNat {f : Table (BitVec 64)} {src : List Byte} {x : Byte}
    (h : (f.entry x).toNat + src.count x ≤ 2 ^ 64 - 1) :
    ((histSum f src).entry x).toNat = (f.entry x).toNat + src.count x := by
  rw [histSum, Table.entry_tabulate, BitVec.toNat_ofNat]
  exact Nat.mod_eq_of_lt (Nat.lt_of_le_pred (Nat.two_pow_pos 64) h)

section
variable {s : State} (hsrc : SrcInside s)
include hsrc

theorem exec_histAccum_overflow (h : histOverflows s.freq s.srcBytes = true) :
    exec .histAccum s = .next ((s.setFreq (drawTable 64 s.draws)).useDraw.completeFailure
      ⟨.huffmanEncoding, .freqOverflow⟩) := by
  rw [exec, execHistAccum, runCommand_operands _ (operandChecks_pass_of_src rfl hsrc)]
  simp only [histAccumBody, h, if_true, complete_fail]

theorem exec_histAccum_fits (h : histOverflows s.freq s.srcBytes = false) :
    exec .histAccum s = .next ((s.setFreq (histSum s.freq s.srcBytes)).completeSuccess
      { consumed := s.srcLen.toNat }) := by
  rw [exec, execHistAccum, runCommand_operands _ (operandChecks_pass_of_src rfl hsrc)]
  simp only [histAccumBody, h, Bool.false_eq_true, if_false, complete_succeed]

end

/-- Settles O25: no counter overflows, so each new entry holds its sum. -/
theorem histAccumAddsCounts : Obligations.HistAccumAddsCounts := by
  intro s hsrc hsum
  have hfits : histOverflows s.freq s.srcBytes = false := by
    rw [← Bool.not_eq_true, histOverflows_iff]
    rintro ⟨x, hx⟩
    exact Nat.not_lt.2 (hsum x) hx
  exact ⟨_, exec_histAccum_fits hsrc hfits,
    succeeded_completeSuccess _ _ (lengths_fit (Nat.two_pow_pos 32) s.srcLen.isLt),
    ((HostRegsKept.refl s).setFreq _).completeSuccess _, ⟨rfl, rfl⟩, .refl s, fun _ => rfl, rfl,
    fun x => histSum_entry_toNat (hsum x)⟩

/-- Settles O40: one counter past its bound is enough, and FREQ is all the failure writes. -/
theorem histAccumOverflowIsReported : Obligations.HistAccumOverflowIsReported :=
  fun s x hsrc hx =>
    ⟨_, exec_histAccum_overflow hsrc (histOverflows_iff.2 ⟨x, hx⟩), failed_completeFailure _ _,
      ((HostRegsKept.refl s).setFreq _).useDraw.completeFailure _, ⟨rfl, rfl⟩, .refl s,
      fun _ => rfl⟩

/-! ## BUILD_TABLE and its codes (R192, R193, R200, R201) -/

theorem exec_buildTable (s : State) :
    exec .buildTable s =
      .next ((s.setTable (tableLengths s.freq) (canonical (tableLengths s.freq))
        true).completeSuccess
          { aux0 := (presentSymbols s.freq).length, aux1 := maxLength (tableLengths s.freq) }) := by
  rw [exec, execBuildTable, runCommand_operands _ (operandChecks_pass_of_no_ranges rfl rfl s),
    complete_succeed]

/-- Settles O26: the equation of BUILD_TABLE holds in every state. -/
theorem buildTableInstallsCanonicalTable : Obligations.BuildTableInstallsCanonicalTable := by
  intro s
  have hpresent : (presentSymbols s.freq).length < 2 ^ 32 :=
    (presentSymbols_length_le s.freq).trans_lt (by decide)
  obtain ⟨-, hmax⟩ := tableResults_fit (tableLengths s.freq)
  exact ⟨_, exec_buildTable s,
    succeeded_completeSuccess _ _ ⟨Nat.two_pow_pos 32, Nat.two_pow_pos 32, hpresent, hmax⟩,
    rfl, rfl, rfl, ((HostRegsKept.refl s).setTable _ _ _).completeSuccess _, ⟨rfl, rfl⟩, rfl,
    fun _ => rfl, rfl⟩

/-- Settles O53: the tree of two or more leaves fills the code space, one leaf half of it. -/
theorem builtTableKraftSum : Obligations.BuiltTableKraftSum := fun _ =>
  ⟨kraftSum_tableLengths_of_two_le, kraftSum_tableLengths_of_one, kraftSum_tableLengths_of_none⟩

theorem admissible_iff {l : Table (BitVec 8)} : admissible l = true ↔ kraftSum l ≤ 2 ^ 255 :=
  decide_eq_true_iff

/-- Settles O54: the intervals of the canonical codes do not meet. -/
theorem canonicalCodesArePrefixFree : Obligations.CanonicalCodesArePrefixFree := fun _ hl =>
  ⟨canonical_fits (admissible_iff.1 hl), fun _ _ => canonical_prefixFree (admissible_iff.1 hl)⟩

/-! ## TABLE_STORE (R195) -/

theorem map_symbols_getElem {α : Type} (f : Byte → α) (x : Byte)
    (h : x.toNat < (symbols.map f).length) : (symbols.map f)[x.toNat] = f x := by
  rw [List.getElem_map, symbols_getElem, BitVec.ofNat_toNat, BitVec.setWidth_eq]

/-- Settles O27: byte `x` of the one store is the length of symbol `x`. -/
theorem tableStoreStoresLengths : Obligations.TableStoreStoresLengths := by
  intro s hdst hvalid hcap
  obtain ⟨hcount, hmax⟩ := tableResults_fit s.len
  obtain ⟨t, hexec, hdone, hstored⟩ :=
    exec_stores (i := .tableStore) (bs := symbols.map s.len.entry) (by rfl)
      (operandChecks_pass_of_dst rfl hdst)
      ((tableCheck_passes hvalid _ _).trans (capCheck_passes hcap)) rfl
      ⟨(by decide : 256 < 2 ^ 32), Nat.two_pow_pos 32, hcount, hmax⟩
  refine ⟨t, hexec, hdone, hstored, fun x => ?_⟩
  have hx : x.toNat < (symbols.map s.len.entry).length := by
    rw [List.length_map, symbols_length]
    exact x.isLt
  rw [hstored.stored.readByte hx, map_symbols_getElem]

/-! ## TABLE_LOAD (R196, R197) -/

/-- The length of symbol `x` is byte `x` of the source. -/
theorem lengthsOfBytes_srcBytes_entry {s : State} (hlen : s.srcLen.toNat = 256) (x : Byte) :
    (lengthsOfBytes s.srcBytes).entry x = s.readByte (s.srcAddr.toNat + x.toNat) := by
  have hx : x.toNat < (s.readBytes s.srcAddr.toNat s.srcLen.toNat).length := by
    rw [readBytes_length, hlen]
    exact x.isLt
  rw [lengthsOfBytes, Table.entry_tabulate, State.srcBytes, ← List.getElem_eq_getD _ (h := hx),
    readBytes_getElem]

theorem exec_tableLoad (s : State) :
    exec .tableLoad s = runCommand s (operandChecks .tableLoad s ++
      [(s.srcLen.toNat != Config.tableBytes, decompressionFailed .tableLength)]) tableLoadBody :=
  rfl

section
variable {s : State} (hsrc : SrcInside s) (hlen : s.srcLen.toNat = 256)
include hsrc hlen

theorem exec_tableLoad_passed : exec .tableLoad s = .next (tableLoadBody s).complete :=
  exec_passed (exec_tableLoad s) (operandChecks_pass_of_src rfl hsrc)
    (firstFailing_cons_passed (bne_eq_false_iff_eq.2 hlen))

theorem exec_tableLoad_admissible (h : admissible (lengthsOfBytes s.srcBytes) = true) :
    exec .tableLoad s =
      .next ((s.setTable (lengthsOfBytes s.srcBytes) (canonical (lengthsOfBytes s.srcBytes))
        true).completeSuccess
          { consumed := 256
            aux0 := codedCount (lengthsOfBytes s.srcBytes)
            aux1 := maxLength (lengthsOfBytes s.srcBytes) }) := by
  rw [exec_tableLoad_passed hsrc hlen]
  simp only [tableLoadBody, h, if_true, complete_succeed]
  rfl

theorem exec_tableLoad_oversub (h : admissible (lengthsOfBytes s.srcBytes) = false) :
    exec .tableLoad s =
      .next ((s.setTable (drawTable 8 s.draws) (drawTable 255 s.draws)
        false).useDraw.completeFailure (decompressionFailed .tableOversub)) := by
  rw [exec_tableLoad_passed hsrc hlen]
  simp only [tableLoadBody, h, Bool.false_eq_true, if_false, complete_fail]

end

/-- Settles O28: the array read is the one installed, with its canonical codes. -/
theorem tableLoadInstallsLengths : Obligations.TableLoadInstallsLengths := by
  intro s hsrc hlen hadm
  obtain ⟨hcount, hmax⟩ := tableResults_fit (lengthsOfBytes s.srcBytes)
  exact ⟨_, exec_tableLoad_admissible hsrc hlen hadm,
    succeeded_completeSuccess _ _ ⟨Nat.two_pow_pos 32, (by decide : 256 < 2 ^ 32), hcount, hmax⟩,
    lengthsOfBytes_srcBytes_entry hlen, rfl, rfl,
    ((HostRegsKept.refl s).setTable _ _ _).completeSuccess _, ⟨rfl, rfl⟩, rfl, fun _ => rfl, rfl⟩

/-- Settles O39: the length check stops the command; the Kraft check is made by its body. -/
theorem tableLoadErrors : Obligations.TableLoadErrors := by
  refine fun s hsrc => ⟨fun hlen => ?tableLength, fun hlen hkraft => ?oversub⟩
  case tableLength =>
    exact exec_checkError (exec_tableLoad s) (operandChecks_pass_of_src rfl hsrc)
      (if_pos (bne_iff_ne.2 hlen))
  case oversub =>
    have hadm : admissible (lengthsOfBytes s.srcBytes) = false := by
      rw [← Bool.not_eq_true, admissible_iff]
      exact Nat.not_le.2 hkraft
    exact ⟨_, exec_tableLoad_oversub hsrc hlen hadm, failed_completeFailure _ _, rfl,
      ((HostRegsKept.refl s).setTable _ _ _).useDraw.completeFailure _, ⟨rfl, rfl⟩, rfl,
      fun _ => rfl⟩

/-! ## The round trip of a table -/

/-- Settles O55: the array TABLE_LOAD reads has, symbol by symbol, the lengths TABLE_STORE wrote,
and a valid CODE is canonical. -/
theorem storedTableLoadsBack : Obligations.StoredTableLoadsBack := by
  intro s hinv hvalid hdst hcap
  obtain ⟨t, hexec, -, -, hread⟩ := tableStoreStoresLengths s hdst hvalid hcap
  refine ⟨t, hexec, ?_⟩
  generalize hu : { t with srcAddr := s.dstAddr, srcLen := 256 } = u
  have hulen : u.srcLen.toNat = 256 := by
    rw [← hu]
    rfl
  have husrc : SrcInside u := by
    unfold SrcInside
    rw [hulen, ← hu]
    exact (Nat.add_le_add_left hcap _).trans hdst
  have hback : lengthsOfBytes u.srcBytes = s.len := Table.ext_entry fun x => by
    rw [lengthsOfBytes_srcBytes_entry hulen, ← hread x, ← hu]
    exact readByte_congr rfl rfl _
  have hadm : admissible (lengthsOfBytes u.srcBytes) = true :=
    admissible_iff.2 (hback ▸ hinv.kraft)
  refine ⟨_, exec_tableLoad_admissible husrc hulen hadm, rfl, rfl, hback, ?_⟩
  rw [hinv.canonical, ← hback]
  rfl

end Sys2Proof.Machine
end

section
/-! # Packed bits (43_huffman.md R203, R204, R207)

Bit `j` of a packed string stands at bit `7 - j % 8` of byte `j / 8`. Unpacking the bytes of a
packed string therefore gives the string back, then the padding. -/

namespace Sys2Proof.Machine

/-! ## One byte -/

/-- The number whose `n` binary digits are `b 0` to `b (n - 1)`, the most significant first. -/
def digitsValue (n : Nat) (b : Nat → Bool) : Nat :=
  ((List.range n).map fun p => if b p then 2 ^ (n - 1 - p) else 0).sum

theorem packByte_eq_digitsValue (w : List Bool) :
    packByte w = BitVec.ofNat 8 (digitsValue 8 fun p => w.getD p false) := rfl

/-- The first digit stands above the others. -/
theorem digitsValue_succ (n : Nat) (b : Nat → Bool) :
    digitsValue (n + 1) b = (if b 0 then 2 ^ n else 0) + digitsValue n fun p => b (p + 1) := by
  simp only [digitsValue, List.range_succ_eq_map, List.map_cons, List.map_map, List.sum_cons,
    Nat.add_sub_cancel, Nat.sub_zero]
  congr 2
  refine List.map_congr_left fun p _ => ?_
  simp only [Function.comp_apply, Nat.succ_eq_add_one, Nat.sub_sub, Nat.add_comm 1 p]

theorem digitsValue_lt (n : Nat) (b : Nat → Bool) : digitsValue n b < 2 ^ n := by
  induction n generalizing b with
  | zero => exact Nat.one_pos
  | succ n ih =>
    have hrest := ih fun p => b (p + 1)
    rw [digitsValue_succ, Nat.pow_succ]
    split <;> omega

theorem digitsValue_testBit {n p : Nat} (b : Nat → Bool) (hp : p < n) :
    (digitsValue n b).testBit (n - 1 - p) = b p := by
  induction n generalizing b p with
  | zero => cases hp
  | succ n ih =>
    have hrest := digitsValue_lt n fun p => b (p + 1)
    rw [digitsValue_succ, Nat.add_sub_cancel]
    cases p with
    | zero =>
      rw [Nat.sub_zero]
      cases hb : b 0 with
      | true =>
        rw [if_pos rfl, Nat.testBit_two_pow_add_eq, Nat.testBit_lt_two_pow hrest, Bool.not_false]
      | false => rw [if_neg Bool.false_ne_true, Nat.zero_add, Nat.testBit_lt_two_pow hrest]
    | succ p =>
      have hdigit := ih (fun p => b (p + 1)) (Nat.lt_of_succ_lt_succ hp)
      rw [Nat.sub_sub, Nat.add_comm 1 p] at hdigit
      split
      · rw [Nat.testBit_two_pow_add_gt (by omega), hdigit]
      · rw [Nat.zero_add, hdigit]

/-- Bit `7 - p` of a packed byte is bit `p` of the string (R203), and 0 past its end (R204). -/
theorem packByte_getLsbD (w : List Bool) {p : Nat} (hp : p < 8) :
    (packByte w).getLsbD (7 - p) = w.getD p false := by
  rw [packByte_eq_digitsValue, BitVec.getLsbD, BitVec.toNat_ofNat,
    Nat.mod_eq_of_lt (digitsValue_lt 8 _)]
  exact digitsValue_testBit (fun p => w.getD p false) hp

/-! ## Many bytes -/

theorem le_ceilDiv_eight (n : Nat) : n ≤ 8 * ceilDiv n 8 := by
  unfold ceilDiv
  omega

/-- Bit `7 - j % 8` of byte `j / 8` is bit `j` of the string, and 0 in the padding. -/
theorem packBits_getLsbD {w : List Bool} {j : Nat} (h : j / 8 < (packBits w).length) :
    (packBits w)[j / 8].getLsbD (7 - j % 8) = w.getD j false := by
  simp only [packBits, List.getElem_map, List.getElem_range]
  rw [packByte_getLsbD _ (Nat.mod_lt j (by decide)), List.getD_eq_getElem?_getD,
    List.getElem?_drop, Nat.div_add_mod, List.getD_eq_getElem?_getD]

theorem byteBits_getElem? {b : Byte} {p : Nat} (hp : p < 8) :
    (byteBits b)[p]? = some (b.getLsbD (7 - p)) := by
  rw [List.getElem?_eq_getElem (by rwa [byteBits_length])]
  simp only [byteBits, List.getElem_map, List.getElem_range]

/-- Bit `j` of the stream of some bytes is bit `7 - j % 8` of byte `j / 8` (R207). -/
theorem flatMap_byteBits_getElem? (bs : List Byte) (j : Nat) :
    (bs.flatMap byteBits)[j]? = bs[j / 8]?.map fun b => b.getLsbD (7 - j % 8) := by
  induction bs generalizing j with
  | nil => rfl
  | cons b bs ih =>
    rw [List.flatMap_cons]
    rcases Nat.lt_or_ge j 8 with hj | hj
    · rw [List.getElem?_append_left (by rwa [byteBits_length]), byteBits_getElem? hj,
        Nat.div_eq_of_lt hj, Nat.mod_eq_of_lt hj, List.getElem?_cons_zero, Option.map_some]
    · obtain ⟨k, rfl⟩ := Nat.exists_eq_add_of_le hj
      rw [List.getElem?_append_right (by rwa [byteBits_length]), byteBits_length,
        Nat.add_sub_cancel_left, ih, Nat.add_div_left k (by decide), Nat.add_mod_left,
        List.getElem?_cons_succ]

theorem flatMap_byteBits_length (bs : List Byte) :
    (bs.flatMap byteBits).length = 8 * bs.length := by
  simp only [List.length_flatMap, byteBits_length, List.map_const', List.sum_replicate,
    smul_eq_mul, Nat.mul_comm]

/-- Unpacking a packed string gives it back, then the padding. -/
theorem flatMap_byteBits_packBits (w : List Bool) :
    ∃ padding, (packBits w).flatMap byteBits = w ++ padding := by
  have hprefix : w <+: (packBits w).flatMap byteBits := by
    refine List.prefix_iff_getElem?.2 fun j hj => ?_
    have hbyte : j / 8 < (packBits w).length := by
      have := le_ceilDiv_eight w.length
      rw [packBits_length]
      omega
    rw [flatMap_byteBits_getElem?, List.getElem?_eq_getElem hbyte, Option.map_some,
      packBits_getLsbD, ← List.getElem_eq_getD]
  obtain ⟨padding, hpadding⟩ := hprefix
  exact ⟨padding, hpadding.symm⟩

end Sys2Proof.Machine
end

section
/-! # The match step (43_huffman.md R208, R209)

What the match step answers is said without its recursion (`MatchAnswer`): a code that begins the
bits, first bits that no code fits, or bits that only longer codes begin with. These three shut one
another out but for the choice of the code, so each answer is known by its case. Codes of which none
begins another leave no choice. -/

namespace Sys2Proof.Machine

/-! ## One symbol -/

/-- What the match step may answer on `bits` with the code strings of `book`. -/
inductive MatchAnswer (book : List (Byte × List Bool)) (bits : List Bool) :
    Except ErrDetail (Byte × List Bool) → Prop
  | matched (e : Byte × List Bool) (rest : List Bool) (hmem : e ∈ book)
      (hbits : bits = e.2 ++ rest) : MatchAnswer book bits (.ok (e.1, rest))
  | noCode (p : List Bool) (hprefix : p <+: bits)
      (hnone : ∀ e ∈ book, ¬ p <+: e.2 ∧ ¬ e.2 <+: p) : MatchAnswer book bits (.error .noCode)
  | exhausted (e : Byte × List Bool) (hmem : e ∈ book) (hlonger : bits <+: e.2)
      (hnone : ∀ e ∈ book, ¬ e.2 <+: bits) : MatchAnswer book bits (.error .bitsExhausted)

/-- The test for a longer code that begins with the bits read. -/
theorem any_longer_iff {book : List (Byte × List Bool)} {w : List Bool} :
    (book.any fun e => w.length < e.2.length && e.2.take w.length == w) = true ↔
      ∃ e ∈ book, w <+: e.2 ∧ w ≠ e.2 := by
  simp only [List.any_eq_true, Bool.and_eq_true, decide_eq_true_eq, beq_iff_eq]
  refine exists_congr fun e => and_congr_right fun _ => ⟨fun ⟨hlt, htake⟩ => ?_, fun ⟨h, hne⟩ => ?_⟩
  · exact ⟨htake ▸ List.take_prefix _ _, fun h => hlt.ne (congrArg List.length h)⟩
  · exact ⟨h.length_le.lt_of_ne fun hlen => hne (h.eq_of_length hlen),
      (List.prefix_iff_eq_take.1 h).symm⟩

/-- While no shorter code begins the bits read, the match step answers as `MatchAnswer` says. -/
theorem matchStep_answer {book : List (Byte × List Bool)} {w rest : List Bool}
    (hread : ∀ e ∈ book, e.2 <+: w → e.2 = w) :
    MatchAnswer book (w ++ rest) (matchStep book w rest) := by
  have hnot {v : List Bool} (hv : ∀ e ∈ book, e.2 <+: v → e.2 = v)
      (hfind : book.find? (fun e => e.2 == v) = none) : ∀ e ∈ book, ¬ e.2 <+: v :=
    fun e he hpre => List.find?_eq_none.1 hfind e he (beq_iff_eq.2 (hv e he hpre))
  fun_induction matchStep book w rest with
  | case1 rest w e hfind =>
    exact .matched e rest (List.mem_of_find?_eq_some hfind)
      (congrArg (· ++ rest) (eq_of_beq (List.find?_some hfind :)).symm)
  | case2 w hfind hany =>
    obtain ⟨e, he, hlonger, -⟩ := any_longer_iff.1 hany
    rw [List.append_nil]
    exact .exhausted e he hlonger (hnot hread hfind)
  | case3 w hfind hany b rest ih =>
    rw [List.append_cons]
    refine ih fun e he hpre => ?_
    exact (List.prefix_concat_iff.1 hpre).resolve_right (hnot hread hfind e he)
  | case4 rest w hfind hany =>
    refine .noCode w (List.prefix_append w rest) fun e he => ⟨fun hpre => ?_, hnot hread hfind e he⟩
    have hne : w ≠ e.2 := fun h => hnot hread hfind e he (h ▸ List.prefix_rfl)
    exact hany (any_longer_iff.2 ⟨e, he, hpre, hne⟩)

/-- The match step on a stream, from its first bit on. -/
theorem matchStep_nil_answer (book : List (Byte × List Bool)) (bits : List Bool) :
    MatchAnswer book bits (matchStep book [] bits) :=
  matchStep_answer fun _ _ => List.prefix_nil.1

section
variable {book : List (Byte × List Bool)} {bits : List Bool}

/-- When no code fits the first bits, no code begins them all. -/
theorem not_prefix_of_unfit {p : List Bool} (hp : p <+: bits)
    (hnone : ∀ e ∈ book, ¬ p <+: e.2 ∧ ¬ e.2 <+: p) : ∀ e ∈ book, ¬ e.2 <+: bits :=
  fun e he hcode => (List.prefix_or_prefix_of_prefix hp hcode).elim (hnone e he).1 (hnone e he).2

/-- The match step reports NO_CODE exactly when no code fits some first part of the bits. -/
theorem matchStep_noCode_iff :
    matchStep book [] bits = .error .noCode ↔
      ∃ p, p <+: bits ∧ ∀ e ∈ book, ¬ p <+: e.2 ∧ ¬ e.2 <+: p := by
  have hanswer := matchStep_nil_answer book bits
  generalize matchStep book [] bits = answer at hanswer
  cases hanswer with
  | matched e rest hmem hbits =>
    refine iff_of_false nofun fun ⟨p, hp, hnone⟩ => ?_
    exact not_prefix_of_unfit hp hnone e hmem (hbits ▸ List.prefix_append e.2 rest)
  | noCode p hprefix hnone => exact iff_of_true rfl ⟨p, hprefix, hnone⟩
  | exhausted e hmem hlonger hnone =>
    exact iff_of_false nofun fun ⟨p, hp, hunfit⟩ => (hunfit e hmem).1 (hp.trans hlonger)

/-- The match step reports BITS_EXHAUSTED exactly when only longer codes begin with the bits. -/
theorem matchStep_bitsExhausted_iff :
    matchStep book [] bits = .error .bitsExhausted ↔
      (∃ e ∈ book, bits <+: e.2) ∧ ∀ e ∈ book, ¬ e.2 <+: bits := by
  have hanswer := matchStep_nil_answer book bits
  generalize matchStep book [] bits = answer at hanswer
  cases hanswer with
  | matched e rest hmem hbits =>
    exact iff_of_false nofun fun ⟨_, hnone⟩ => hnone e hmem (hbits ▸ List.prefix_append e.2 rest)
  | noCode p hprefix hunfit =>
    exact iff_of_false nofun fun ⟨⟨e, he, hlonger⟩, _⟩ =>
      (hunfit e he).1 (hprefix.trans hlonger)
  | exhausted e hmem hlonger hnone => exact iff_of_true rfl ⟨⟨e, hmem, hlonger⟩, hnone⟩

/-- The one code that begins the bits is the one matched. -/
theorem matchStep_ok {x : Byte} {code rest : List Bool} (hmem : (x, code) ∈ book)
    (hone : ∀ e ∈ book, e.2 <+: code ++ rest → e = (x, code)) :
    matchStep book [] (code ++ rest) = .ok (x, rest) := by
  have hcode : code <+: code ++ rest := List.prefix_append code rest
  have hanswer := matchStep_nil_answer book (code ++ rest)
  generalize matchStep book [] (code ++ rest) = answer at hanswer
  cases hanswer with
  | matched e after he hbits =>
    obtain rfl := hone e he (hbits ▸ List.prefix_append e.2 after)
    rw [List.append_cancel_left hbits]
  | noCode p hprefix hunfit => exact absurd hcode (not_prefix_of_unfit hprefix hunfit _ hmem)
  | exhausted e he hlonger hnone => exact absurd hcode (hnone _ hmem)

end

/-! ## The code book of a table -/

section
variable {l : Table (BitVec 8)} {c : Table (BitVec 255)}

theorem mem_codeBook {e : Byte × List Bool} :
    e ∈ codeBook l c ↔ l.entry e.1 ≠ 0 ∧ e.2 = codeString l c e.1 := by
  simp only [codeBook, List.mem_map, mem_codedSymbols]
  constructor
  · rintro ⟨s, hs, rfl⟩
    exact ⟨hs, rfl⟩
  · rintro ⟨hs, hcode⟩
    exact ⟨e.1, hs, Prod.ext rfl hcode.symm⟩

theorem forall_mem_codeBook {P : List Bool → Prop} :
    (∀ e ∈ codeBook l c, P e.2) ↔ ∀ y, l.entry y ≠ 0 → P (codeString l c y) := by
  simp only [codeBook, List.forall_mem_map, mem_codedSymbols]

theorem exists_mem_codeBook {P : List Bool → Prop} :
    (∃ e ∈ codeBook l c, P e.2) ↔ ∃ y, l.entry y ≠ 0 ∧ P (codeString l c y) := by
  simp only [codeBook, List.mem_map, mem_codedSymbols, exists_exists_and_eq_and]

/-- The match step takes the one symbol whose code begins the bits. -/
theorem matchStep_codeString {x : Byte} {rest : List Bool} (hx : l.entry x ≠ 0)
    (hone : ∀ y, l.entry y ≠ 0 → codeString l c y <+: codeString l c x ++ rest → y = x) :
    matchStep (codeBook l c) [] (codeString l c x ++ rest) = .ok (x, rest) := by
  refine matchStep_ok (mem_codeBook.2 ⟨hx, rfl⟩) fun e he hpre => ?_
  obtain ⟨hcoded, hcode⟩ := mem_codeBook.1 he
  have hsame : e.1 = x := hone e.1 hcoded (hcode ▸ hpre)
  exact Prod.ext hsame (hsame ▸ hcode)

end

/-! ## Many symbols under a valid table -/

section
variable {l : Table (BitVec 8)} {c : Table (BitVec 255)} (hvalid : TableInvariant l c)
include hvalid

/-- Of the codes of a valid table only that of `x` begins the code of `x` and what follows it. -/
theorem TableInvariant.matchStep_codeString {x : Byte} (hx : l.entry x ≠ 0) (rest : List Bool) :
    matchStep (codeBook l c) [] (codeString l c x ++ rest) = .ok (x, rest) := by
  refine Machine.matchStep_codeString hx fun y hy hpre => ?_
  rcases List.prefix_or_prefix_of_prefix hpre (List.prefix_append _ rest) with h | h
  · exact hvalid.prefixFree y x hy hx h
  · exact (hvalid.prefixFree x y hx hy h).symm

/-- The codes of some symbols decode to these symbols (R211). -/
theorem TableInvariant.decodeSymbols_flatMap {xs : List Byte} (hxs : ∀ x ∈ xs, l.entry x ≠ 0)
    (bits : List Bool) :
    decodeSymbols (codeBook l c) xs.length (xs.flatMap (codeString l c) ++ bits) =
      .ok (xs, bits) := by
  induction xs with
  | nil => rfl
  | cons x xs ih =>
    obtain ⟨hx, hrest⟩ := List.forall_mem_cons.1 hxs
    rw [List.length_cons, List.flatMap_cons, List.append_assoc, decodeSymbols,
      hvalid.matchStep_codeString hx]
    simp only [ih hrest]

/-- After the codes of fewer symbols than are asked for, the next match step's error is the error of
the whole (R209). -/
theorem TableInvariant.decodeSymbols_flatMap_error {xs : List Byte} {bits : List Bool} {n : Nat}
    {e : ErrDetail} (hxs : ∀ x ∈ xs, l.entry x ≠ 0) (hn : xs.length < n)
    (he : matchStep (codeBook l c) [] bits = .error e) :
    decodeSymbols (codeBook l c) n (xs.flatMap (codeString l c) ++ bits) = .error e := by
  induction xs generalizing n with
  | nil =>
    obtain ⟨n, rfl⟩ := Nat.exists_eq_add_of_lt hn
    rw [List.flatMap_nil, List.nil_append, decodeSymbols, he]
  | cons x xs ih =>
    obtain ⟨n, rfl⟩ := Nat.exists_eq_succ_of_ne_zero (Nat.ne_zero_of_lt hn)
    obtain ⟨hx, hrest⟩ := List.forall_mem_cons.1 hxs
    rw [List.flatMap_cons, List.append_assoc, decodeSymbols, hvalid.matchStep_codeString hx]
    simp only [ih hrest (Nat.lt_of_succ_lt_succ hn)]

end

end Sys2Proof.Machine
end

section
/-! # ENCODE and DECODE (43_huffman.md R205 to R211)

Each command is an equation per outcome: its first failing check, the failure that leaves the
destination range unspecified, or its one store. -/

namespace Sys2Proof.Machine

/-- What a failure that leaves the destination range unspecified keeps (60_exceptions.md R253). -/
theorem failed_and_dst_unspecified {s : State} {e : CmdError} {o : Host.Outcome State Fault Refusal}
    (h : o = .next (s.scrambleDst.completeFailure e)) :
    ∃ t, o = .next t ∧ Failed t e ∧ HostRegsKept s t ∧ OrigLenKept s t ∧ FreqKept s t ∧
      CodesKept s t ∧ MemoryKeptOutside s t s.dstAddr.toNat s.dstCap.toNat :=
  ⟨_, h, failed_completeFailure _ _, (HostRegsKept.refl s).scrambleDst.completeFailure _,
    ⟨rfl, rfl⟩, rfl, .refl s, memoryKeptOutside_scrambleDst s⟩

/-- A bit count whose bytes fit 32 bits fits AUX0 and AUX1. -/
theorem bitCount_fits {n : Nat} (h : ceilDiv n 8 < 2 ^ 32) :
    n % 2 ^ 32 < 2 ^ 32 ∧ n / 2 ^ 32 < 2 ^ 32 := by
  have := le_ceilDiv_eight n
  omega

/-! ## ENCODE (R205, R206) -/

theorem exec_encode (s : State) :
    exec .encode s = runCommand s (operandChecks .encode s ++
      [(!s.tableValid, ⟨.huffmanEncoding, .noTable⟩)]) encodeBody := rfl

section
variable {s : State}

theorem encodeBody_uncoded (h : ∃ x ∈ s.srcBytes, s.len.entry x = 0) :
    encodeBody s = fail s.scrambleDst ⟨.huffmanEncoding, .symbolUncoded⟩ :=
  if_pos (List.any_eq_true.2 (by simpa only [beq_iff_eq] using h))

variable (hcoded : ∀ x ∈ s.srcBytes, s.len.entry x ≠ 0)
include hcoded

theorem not_any_uncoded : ¬ (s.srcBytes.any fun x => s.len.entry x == 0) = true := by
  simpa only [List.any_eq_true, beq_iff_eq, not_exists, not_and] using hcoded

theorem encodeBody_outCap (h : s.dstCap.toNat < 8 + ceilDiv (bitCount s.len s.srcBytes) 8) :
    encodeBody s = fail s.scrambleDst outCapError :=
  (if_neg (not_any_uncoded hcoded)).trans (if_pos h)

theorem encodeBody_fits (h : 8 + ceilDiv (bitCount s.len s.srcBytes) 8 ≤ s.dstCap.toNat) :
    encodeBody s = succeed (s.writeDst (payload s.len s.code s.srcBytes))
      { resultLen := 8 + ceilDiv (bitCount s.len s.srcBytes) 8
        consumed := s.srcLen.toNat
        aux0 := bitCount s.len s.srcBytes % 2 ^ 32
        aux1 := bitCount s.len s.srcBytes / 2 ^ 32 } :=
  (if_neg (not_any_uncoded hcoded)).trans (if_neg (Nat.not_lt.2 h))

end

/-- The bits of the payload stand after its count. -/
theorem MemoryHolds.payload_getLsbD {t : State} {a n j : Nat} {w : List Bool}
    (h : MemoryHolds t a (leBytes 8 n ++ packBits w)) (hj : j < 8 * ceilDiv w.length 8) :
    (t.readByte (a + 8 + j / 8)).getLsbD (7 - j % 8) = w.getD j false := by
  have hbyte : j / 8 < (packBits w).length := by
    rw [packBits_length]
    omega
  have hplace : 8 + j / 8 < (leBytes 8 n ++ packBits w).length := by
    rw [List.length_append, leBytes_length]
    omega
  rw [Nat.add_assoc, h.readByte hplace, List.getElem_append_right (by simp)]
  simp only [leBytes_length, Nat.add_sub_cancel_left]
  exact packBits_getLsbD hbyte

/-- Settles O29: the code strings by their definition; the payload is the one store of ENCODE, and
its bits are those of the packed string. -/
theorem encodeStoresPayload : Obligations.EncodeStoresPayload := by
  refine ⟨fun l c x => ⟨codeString_length l c x, fun k hk => ?_⟩, ?_⟩
  · rw [List.getElem?_eq_getElem (by rwa [codeString_length])]
    simp only [codeString, bitsMsb, List.getElem_map, List.getElem_range]
  · rintro s w hsrc hdst hapart hvalid hcoded hcap rfl
    have hbits : (s.srcBytes.flatMap (codeString s.len s.code)).length =
        bitCount s.len s.srcBytes := encodedBits_length _ _ _
    have hpayload : payload s.len s.code s.srcBytes = leBytes 8 s.srcLen.toNat ++
        packBits (s.srcBytes.flatMap (codeString s.len s.code)) := by
      rw [payload, srcBytes_length, encodedBits]
    have hsize : 8 + ceilDiv (bitCount s.len s.srcBytes) 8 < 2 ^ 32 := hcap.trans_lt s.dstCap.isLt
    obtain ⟨hlow, hhigh⟩ := bitCount_fits ((Nat.le_add_left _ 8).trans_lt hsize)
    obtain ⟨t, hexec, hdone, hstored⟩ :=
      exec_stores (exec_encode s) (operandChecks_pass_of_legal hsrc hdst hapart)
        (tableCheck_passes hvalid _ _) (encodeBody_fits hcoded hcap)
        ⟨hsize, s.srcLen.isLt, hlow, hhigh⟩
    rw [hpayload] at hstored
    have hread {j : Nat} := hstored.stored.payload_getLsbD (j := j)
    refine ⟨hbits, t, hexec, hbits ▸ hdone, hstored, ?_, fun j b hj => ?_, fun j hpast hj => ?_⟩
    · rw [List.length_append, leBytes_length, packBits_length]
    · obtain ⟨hlt, -⟩ := List.getElem?_eq_some_iff.1 hj
      rw [hread (hlt.trans_le (le_ceilDiv_eight _)), List.getD_eq_getElem?_getD, hj,
        Option.getD_some]
    · rw [hread hj, List.getD_eq_default _ _ hpast]

/-- Settles O41: the two tests of the body, in its order. -/
theorem encodeErrorsInOrder : Obligations.EncodeErrorsInOrder := by
  intro s hsrc hdst hapart hvalid
  have hpassed : exec .encode s = .next (encodeBody s).complete :=
    exec_passed (exec_encode s) (operandChecks_pass_of_legal hsrc hdst hapart)
      (tableCheck_passes hvalid _ _)
  exact ⟨fun h => failed_and_dst_unspecified (by rw [hpassed, encodeBody_uncoded h, complete_fail]),
    fun hcoded h =>
      failed_and_dst_unspecified (by rw [hpassed, encodeBody_outCap hcoded h, complete_fail]; rfl)⟩

/-! ## DECODE (R207 to R210) -/

/-- The checks of DECODE after its operand checks (R210). -/
def decodeChecks (s : State) : List Check :=
  [ (!s.tableValid, decompressionFailed .noTable),
    (s.srcLen.toNat < 8, decompressionFailed .payloadTruncated) ]

theorem exec_decode (s : State) :
    exec .decode s = runCommand s (operandChecks .decode s ++ decodeChecks s) decodeBody := rfl

section
variable {s : State}

theorem decodeChecks_noTable (h : s.tableValid = false) :
    firstFailing (decodeChecks s) = some (decompressionFailed .noTable) := tableCheck_fails h _ _

theorem decodeChecks_truncated (hvalid : s.tableValid = true) (h : s.srcLen.toNat < 8) :
    firstFailing (decodeChecks s) = some (decompressionFailed .payloadTruncated) :=
  (tableCheck_passes hvalid _ _).trans (capCheck_fails h)

theorem decodeChecks_pass (hvalid : s.tableValid = true) (h : 8 ≤ s.srcLen.toNat) :
    firstFailing (decodeChecks s) = none :=
  (tableCheck_passes hvalid _ _).trans (capCheck_passes h)

theorem decodeBody_outCap (h : s.dstCap.toNat < s.payloadCount) :
    decodeBody s = fail s outCapError := by
  simp only [decodeBody, if_pos h]

variable (hcap : s.payloadCount ≤ s.dstCap.toNat)
include hcap

theorem decodeBody_error {e : ErrDetail}
    (h : decodeSymbols (codeBook s.len s.code) s.payloadCount (payloadBits s.srcBytes) = .error e) :
    decodeBody s = fail s.scrambleDst (decompressionFailed e) := by
  simp only [decodeBody, if_neg (Nat.not_lt.2 hcap), h]

theorem decodeBody_ok {out : List Byte} {after : List Bool}
    (h : decodeSymbols (codeBook s.len s.code) s.payloadCount (payloadBits s.srcBytes) =
      .ok (out, after)) :
    decodeBody s = succeed (s.writeDst out)
      { resultLen := s.payloadCount
        consumed := 8 + ceilDiv ((payloadBits s.srcBytes).length - after.length) 8
        aux0 := ((payloadBits s.srcBytes).length - after.length) % 2 ^ 32
        aux1 := ((payloadBits s.srcBytes).length - after.length) / 2 ^ 32 } := by
  simp only [decodeBody, if_neg (Nat.not_lt.2 hcap), h]

end

theorem payloadBits_srcBytes_length (s : State) :
    (payloadBits s.srcBytes).length = 8 * (s.srcLen.toNat - 8) := by
  rw [payloadBits_length, srcBytes_length]

theorem payloadBits_srcBytes_getElem? {s : State} {j : Nat} (hj : j < 8 * (s.srcLen.toNat - 8)) :
    (payloadBits s.srcBytes)[j]? =
      some ((s.readByte (s.srcAddr.toNat + 8 + j / 8)).getLsbD (7 - j % 8)) := by
  have hplace : 8 + j / 8 < (s.readBytes s.srcAddr.toNat s.srcLen.toNat).length := by
    rw [readBytes_length]
    omega
  rw [payloadBits, flatMap_byteBits_getElem?, List.getElem?_drop, State.srcBytes,
    List.getElem?_eq_getElem hplace, readBytes_getElem, Option.map_some, Nat.add_assoc]

/-- What DECODE has consumed of `n` source bytes is at most these. -/
theorem consumed_le {n : Nat} (hn : 8 ≤ n) (k : Nat) : 8 + ceilDiv (8 * (n - 8) - k) 8 ≤ n := by
  unfold ceilDiv
  omega

/-- Settles O30: the stream by its bytes; the symbols read are the one store of DECODE. -/
theorem decodeStoresSymbols : Obligations.DecodeStoresSymbols := by
  refine ⟨fun s => ⟨payloadBits_srcBytes_length s, fun j => payloadBits_srcBytes_getElem?⟩, ?_⟩
  rintro s out after j hsrc hdst hapart hvalid hlen hcap hdecode rfl
  have hbody := decodeBody_ok hcap hdecode
  rw [payloadBits_srcBytes_length] at hbody
  have hsize : 8 + ceilDiv (8 * (s.srcLen.toNat - 8) - after.length) 8 < 2 ^ 32 :=
    (consumed_le hlen _).trans_lt s.srcLen.isLt
  obtain ⟨hlow, hhigh⟩ := bitCount_fits ((Nat.le_add_left _ 8).trans_lt hsize)
  obtain ⟨t, hexec, hdone, hstored⟩ :=
    exec_stores (exec_decode s) (operandChecks_pass_of_legal hsrc hdst hapart)
      (decodeChecks_pass hvalid hlen) hbody ⟨hcap.trans_lt s.dstCap.isLt, hsize, hlow, hhigh⟩
  exact ⟨t, hexec, hdone, hstored, decodeSymbols_length hdecode⟩

/-- Settles O42: the match step by `MatchAnswer`; the checks of DECODE, the test of its body, and
the error the match steps end in. -/
theorem decodeErrorsInOrder : Obligations.DecodeErrorsInOrder := by
  refine ⟨fun l c bits => ⟨?noCode, ?exhausted, fun x hx hpre hone => ?matched⟩,
    fun s hsrc hdst hapart hvalid => ?_⟩
  case noCode =>
    exact matchStep_noCode_iff.trans (exists_congr fun p => and_congr_right fun _ =>
      forall_mem_codeBook (P := fun code => ¬ p <+: code ∧ ¬ code <+: p))
  case exhausted =>
    exact matchStep_bitsExhausted_iff.trans (and_congr
      (exists_mem_codeBook (P := fun code => bits <+: code))
      (forall_mem_codeBook (P := fun code => ¬ code <+: bits)))
  case matched =>
    obtain ⟨rest, rfl⟩ := hpre
    rw [matchStep_codeString hx hone, List.drop_left' (codeString_length l c x)]
  have hoperands : firstFailing (operandChecks .decode s) = none :=
    operandChecks_pass_of_legal hsrc hdst hapart
  have hpassed (hlen : 8 ≤ s.srcLen.toNat) : exec .decode s = .next (decodeBody s).complete :=
    exec_passed (exec_decode s) hoperands (decodeChecks_pass hvalid hlen)
  have hfails {e : ErrDetail} (hlen : 8 ≤ s.srcLen.toNat) (hcap : s.payloadCount ≤ s.dstCap.toNat)
      (he : decodeSymbols (codeBook s.len s.code) s.payloadCount (payloadBits s.srcBytes) =
        .error e) :
      exec .decode s = .next (s.scrambleDst.completeFailure (decompressionFailed e)) := by
    rw [hpassed hlen, decodeBody_error hcap he, complete_fail]
  refine ⟨fun hlen => ?truncated, fun hlen hcap => ?outCap, fun e hlen hcap he => ?error,
    fun xs bits e hinv hlen hcap hfew hxs hbits he => ?later⟩
  case truncated =>
    exact exec_checkError (exec_decode s) hoperands (decodeChecks_truncated hvalid hlen)
  case outCap =>
    exact failed_and_onlyCompletion (by rw [hpassed hlen, decodeBody_outCap hcap]; rfl)
  case error =>
    exact ⟨decodeSymbols_error he, failed_and_dst_unspecified (hfails hlen hcap he)⟩
  case later =>
    have hdecode := hinv.decodeSymbols_flatMap_error hxs hfew he
    rw [← hbits] at hdecode
    exact ⟨_, hfails hlen hcap hdecode, failed_completeFailure _ _⟩

/-- Settles O37: in each command the check of TABLE_VALID is the first after the operand checks. -/
theorem commandsWithoutTableFail : Obligations.CommandsWithoutTableFail := by
  refine fun s hvalid hdst => ⟨?tableStore, fun hsrc hapart => ⟨?encode, ?decode⟩⟩
  case tableStore =>
    exact exec_checkError (by rfl) (operandChecks_pass_of_dst rfl hdst)
      (tableCheck_fails hvalid _ _)
  case encode =>
    exact exec_checkError (exec_encode s) (operandChecks_pass_of_legal hsrc hdst hapart)
      (tableCheck_fails hvalid _ _)
  case decode =>
    exact exec_checkError (exec_decode s) (operandChecks_pass_of_legal hsrc hdst hapart)
      (decodeChecks_noTable hvalid)

/-! ## The round trip (R211) -/

section
variable {s : State} {n : Nat} {w : List Bool}
  (hbytes : s.srcBytes = leBytes 8 n ++ packBits w)
include hbytes

theorem srcLen_of_payload : s.srcLen.toNat = 8 + ceilDiv w.length 8 := by
  rw [← srcBytes_length, hbytes, List.length_append, leBytes_length, packBits_length]

/-- The declared count of a stored payload. -/
theorem payloadCount_of_payload (hn : n < 2 ^ 32) : s.payloadCount = n := by
  have hcount : s.readBytes s.srcAddr.toNat 8 = s.srcBytes.take 8 :=
    (readBytes_drop_take (k := 0) (by rw [srcLen_of_payload hbytes]; omega) s _).symm
  rw [State.payloadCount, hcount, hbytes, leNat_take_leBytes (hn.trans (by decide))]

/-- The stream of a stored payload is its bit string, then the padding. -/
theorem payloadBits_of_payload : ∃ padding, payloadBits s.srcBytes = w ++ padding := by
  rw [payloadBits, hbytes, drop_leBytes]
  exact flatMap_byteBits_packBits w

end

/-- DECODE of the payload of `xs` under a valid table stores `xs` and consumes the whole payload. -/
theorem exec_decode_payload {s : State} {xs : List Byte} {w : List Bool} (hsrc : SrcInside s)
    (hdst : DstInside s) (hapart : RangesApart s) (hvalid : s.tableValid = true)
    (hinv : TableInvariant s.len s.code) (hxs : ∀ x ∈ xs, s.len.entry x ≠ 0)
    (hw : w = xs.flatMap (codeString s.len s.code))
    (hbytes : s.srcBytes = leBytes 8 xs.length ++ packBits w) (hcap : xs.length ≤ s.dstCap.toNat) :
    ∃ t, exec .decode s = .next t ∧
      Succeeded t
        { resultLen := xs.length, consumed := 8 + ceilDiv w.length 8
          aux0 := w.length % 2 ^ 32, aux1 := w.length / 2 ^ 32 } ∧
      MemoryHolds t s.dstAddr.toNat xs := by
  have hlen := srcLen_of_payload hbytes
  have hcount := payloadCount_of_payload hbytes (hcap.trans_lt s.dstCap.isLt)
  obtain ⟨padding, hstream⟩ := payloadBits_of_payload hbytes
  have hdecode : decodeSymbols (codeBook s.len s.code) s.payloadCount (payloadBits s.srcBytes) =
      .ok (xs, padding) := by
    rw [hcount, hstream, hw]
    exact hinv.decodeSymbols_flatMap hxs padding
  have hused : w.length = 8 * (s.srcLen.toNat - 8) - padding.length := by
    rw [← payloadBits_srcBytes_length, hstream, List.length_append, Nat.add_sub_cancel]
  obtain ⟨t, hexec, hdone, hstored, -⟩ :=
    decodeStoresSymbols.2 s _ _ _ hsrc hdst hapart hvalid (by omega) (hcount.trans_le hcap) hdecode
      hused
  exact ⟨t, hexec, hcount ▸ hdone, hstored.stored⟩

/-- Settles O56: the stored payload is what DECODE reads, under the tables ENCODE used. -/
theorem encodedBytesDecodeBack : Obligations.EncodedBytesDecodeBack := by
  intro s hsrc hdst hapart hvalid hinv hcoded hcap
  obtain ⟨hbits, t, hexec, hdone, hstored, hsize, -⟩ :=
    encodeStoresPayload.2 s _ hsrc hdst hapart hvalid hcoded hcap rfl
  obtain ⟨hlen, hcode, htvalid⟩ := hstored.codes
  refine ⟨t, hexec, hdone.code, fun a c u hu hudst huapart hroom => ?_⟩
  have hresult := hdone.resultLen.trans hsize.symm
  have hbytes : u.srcBytes = leBytes 8 s.srcBytes.length ++
      packBits (s.srcBytes.flatMap (codeString s.len s.code)) := calc
    u.srcBytes = t.readBytes s.dstAddr.toNat t.resultLen.toNat := by
      rw [hu]
      exact readBytes_congr rfl rfl _ _
    _ = _ := by
      rw [hresult, srcBytes_length]
      exact hstored.stored
  have husrc : SrcInside u := by
    unfold SrcInside
    rw [srcLen_of_payload hbytes, hbits, hu]
    exact (Nat.add_le_add_left hcap _).trans hdst
  have hulen : u.len = s.len := by rw [hu, hlen]
  have hucode : u.code = s.code := by rw [hu, hcode]
  have huvalid : u.tableValid = true := by rw [hu, ← hvalid, ← htvalid]
  rw [← hulen, ← hucode] at hinv hbytes hdone
  rw [← hulen] at hcoded
  obtain ⟨v, hrun, hvdone, hvstored⟩ := exec_decode_payload husrc hudst huapart huvalid hinv hcoded
    rfl hbytes (by rw [srcBytes_length, hu]; exact hroom)
  have hudstAddr : u.dstAddr = a := by rw [hu]
  refine ⟨v, hrun, ?_, hudstAddr ▸ hvstored⟩
  rwa [hdone.resultLen, hdone.aux0, hdone.aux1, ← srcBytes_length]

end Sys2Proof.Machine
end

section
/-! # The container header commands (44_container.md R240 to R242)

The fields of the header are read off the source bytes once; the checks of HDR_PARSE are then
equations in these fields, and each outcome of the command is an equation of `exec`. -/

namespace Sys2Proof.Machine

/-! ## HDR_PACK (R240, R242) -/

theorem exec_hdrPack (s : State) :
    exec .hdrPack s = runCommand s (operandChecks .hdrPack s ++
      [(decide (s.dstCap.toNat < headerBytes), outCapError)])
      fun s => succeed (s.writeDst (header s.srcLen.toNat)) { resultLen := headerBytes } := rfl

theorem headerBytes_fits : headerBytes < 2 ^ 32 := by decide

/-- Settles O31: HDR_PACK uses no source range, so the destination range and its capacity are all
that is checked; its one store is the header. -/
theorem hdrPackStoresHeader : Obligations.HdrPackStoresHeader := fun s hdst hcap =>
  exec_stores (exec_hdrPack s) (operandChecks_pass_of_dst rfl hdst) (capCheck_passes hcap) rfl
    (lengths_fit headerBytes_fits (Nat.two_pow_pos 32))

/-! ## The fields of a header (R242) -/

section
variable (s : State)

theorem headerSrc_take : s.headerSrc.take 4 = s.readBytes s.srcAddr.toNat 4 :=
  readBytes_drop_take (k := 0) (by decide) s _

theorem headerSrc_getD : s.headerSrc.getD 4 0 = s.readByte (s.srcAddr.toNat + 4) := by
  have hlen : 4 < s.headerSrc.length := (readBytes_length s _ headerBytes).symm ▸ by decide
  rw [← List.getElem_eq_getD _ (h := hlen)]
  exact readBytes_getElem hlen

theorem headerTableLength_eq :
    s.headerTableLength = leNat (s.readBytes (s.srcAddr.toNat + 5) 4) := by
  rw [State.headerTableLength, State.headerSrc, readBytes_drop_take (by decide)]

end

/-! ## The checks of HDR_PARSE (R241) -/

section
variable {s : State}

theorem headerChecks_badMagic (h : s.readBytes s.srcAddr.toNat 4 ≠ Config.magic) :
    firstFailing (headerChecks s) = some (decompressionFailed .badMagic) := by
  rw [headerChecks, headerSrc_take, firstFailing_cons, bne_iff_ne.2 h, if_pos rfl]

variable (hmagic : s.readBytes s.srcAddr.toNat 4 = Config.magic)
include hmagic

theorem headerChecks_badVersion
    (h : s.readByte (s.srcAddr.toNat + 4) ≠ Config.containerVersion) :
    firstFailing (headerChecks s) = some (decompressionFailed .badVersion) := by
  rw [headerChecks, headerSrc_take, firstFailing_cons_passed (bne_eq_false_iff_eq.2 hmagic),
    headerSrc_getD, firstFailing_cons, bne_iff_ne.2 h, if_pos rfl]

variable (hversion : s.readByte (s.srcAddr.toNat + 4) = Config.containerVersion)
include hversion

/-- Behind a legal magic and version only the check of the table length is left. -/
theorem headerChecks_last :
    firstFailing (headerChecks s) = firstFailing
      [(decide (s.srcLen.toNat - headerBytes < s.headerTableLength),
        decompressionFailed .tableTruncated)] := by
  rw [headerChecks, headerSrc_take, firstFailing_cons_passed (bne_eq_false_iff_eq.2 hmagic),
    headerSrc_getD, firstFailing_cons_passed (bne_eq_false_iff_eq.2 hversion)]

theorem headerChecks_tableTruncated (h : s.srcLen.toNat - headerBytes < s.headerTableLength) :
    firstFailing (headerChecks s) = some (decompressionFailed .tableTruncated) :=
  (headerChecks_last hmagic hversion).trans (capCheck_fails h)

theorem headerChecks_pass (h : s.headerTableLength ≤ s.srcLen.toNat - headerBytes) :
    firstFailing (headerChecks s) = none :=
  (headerChecks_last hmagic hversion).trans (capCheck_passes h)

end

/-! ## HDR_PARSE (R241) -/

section
variable {s : State} (hsrc : SrcInside s)
include hsrc

theorem exec_hdrParse_truncated (hlen : s.srcLen.toNat < headerBytes) :
    ∃ t, exec .hdrParse s = .next t ∧ Failed t (decompressionFailed .hdrTruncated) ∧
      OnlyCompletion s t :=
  exec_checkError (by rfl) (operandChecks_pass_of_src rfl hsrc) (capCheck_fails hlen)

variable (hlen : headerBytes ≤ s.srcLen.toNat)
include hlen

theorem exec_hdrParse_checkError {e : CmdError} (h : firstFailing (headerChecks s) = some e) :
    exec .hdrParse s = .next (s.completeFailure e) := by
  rw [exec_passed (i := .hdrParse) (by rfl) (operandChecks_pass_of_src rfl hsrc)
    (capCheck_passes hlen)]
  simp only [h, complete_fail]

theorem exec_hdrParse_ok (h : firstFailing (headerChecks s) = none) :
    exec .hdrParse s = .next (s.completeSuccess
      { consumed := headerBytes
        aux0 := s.headerTableLength
        aux1 := s.srcLen.toNat - headerBytes - s.headerTableLength }) := by
  rw [exec_passed (i := .hdrParse) (by rfl) (operandChecks_pass_of_src rfl hsrc)
    (capCheck_passes hlen)]
  simp only [h, complete_succeed]

end

/-- Settles O32: every check passes, and the lengths of the header, the table and the payload add up
to SRC_LEN, so each fits its register. -/
theorem hdrParseReportsLengths : Obligations.HdrParseReportsLengths := by
  rintro s n hsrc hlen hmagic hversion rfl htable
  rw [← headerTableLength_eq] at htable ⊢
  have htableFits := (htable.trans (Nat.sub_le _ _)).trans_lt s.srcLen.isLt
  have hpayloadFits : s.srcLen.toNat - 9 - s.headerTableLength < 2 ^ 32 :=
    ((Nat.sub_le _ _).trans (Nat.sub_le _ _)).trans_lt s.srcLen.isLt
  exact ⟨_, exec_hdrParse_ok hsrc hlen (headerChecks_pass hmagic hversion htable),
    succeeded_completeSuccess s _ ⟨Nat.two_pow_pos 32, headerBytes_fits, htableFits,
      hpayloadFits⟩,
    onlyCompletion_completeSuccess s _⟩

/-- Settles O43: the check of SRC_LEN, then the checks on the header, each by its equation. -/
theorem hdrParseErrorsInOrder : Obligations.HdrParseErrorsInOrder := by
  refine fun s hsrc => ⟨exec_hdrParse_truncated hsrc, fun hlen hmagic => ?badMagic,
    fun hlen hmagic hversion => ?badVersion, fun hlen hmagic hversion htable => ?tableTruncated⟩
  case badMagic =>
    exact failed_and_onlyCompletion
      (exec_hdrParse_checkError hsrc hlen (headerChecks_badMagic hmagic))
  case badVersion =>
    exact failed_and_onlyCompletion
      (exec_hdrParse_checkError hsrc hlen (headerChecks_badVersion hmagic hversion))
  case tableTruncated =>
    rw [← headerTableLength_eq] at htable
    exact failed_and_onlyCompletion
      (exec_hdrParse_checkError hsrc hlen (headerChecks_tableTruncated hmagic hversion htable))

end Sys2Proof.Machine
end

section
/-! # Completion and the state a failed command leaves (60_exceptions.md R252 to R255, R258)

The completion writes come last in every command, so what they leave is said once of any `Ended`.
The effects a failed command may have had before them are the four cases of `FailureEffect`. -/

namespace Sys2Proof.Machine

/-! ## The completion writes (R255, R258) -/

section
variable (e : Ended)

@[simp] theorem Ended.complete_engine : e.complete.engine = .idle := by
  unfold Ended.complete
  split <;> rfl

@[simp] theorem Ended.complete_done : e.complete.done = true := by
  unfold Ended.complete
  split <;> rfl

end

theorem HostRegsKept.complete {s : State} {e : Ended} (h : HostRegsKept s e.state) :
    HostRegsKept s e.complete := by
  unfold Ended.complete
  split
  · exact h.completeSuccess _
  · exact h.completeFailure _

theorem irq_of_done {t : State} (h : t.done = true) : t.irq = t.doneIE := by
  rw [State.irq, h, Bool.true_and]

theorem CmdError.detail_eq_none {e : CmdError} (he : e.legal = true) (hcode : e.code = .none) :
    e.detail = .none := by
  obtain ⟨code, detail⟩ := e
  cases hcode
  cases detail with
  | none => rfl
  | _ => cases he

/-- A completion reports success, or one error with no results. -/
theorem Ended.Lawful.reports {s : State} {e : Ended} (he : e.Lawful s) :
    (e.complete.errCode = .none ∧ e.complete.errDetail = .none) ∨
      (e.complete.errCode ≠ .none ∧
        Failed e.complete ⟨e.complete.errCode, e.complete.errDetail⟩) := by
  obtain ⟨t, result⟩ := e
  cases result with
  | ok r => exact .inl ⟨rfl, rfl⟩
  | error x =>
    rcases eq_or_ne x.code .none with hcode | hcode
    · exact .inl ⟨hcode, CmdError.detail_eq_none (he.error x rfl) hcode⟩
    · exact .inr ⟨hcode, failed_completeFailure t x⟩

/-- Settles O33: every command ends in the completion writes of a lawful end. -/
theorem everyCommandCompletes : Obligations.EveryCommandCompletes := by
  intro i s
  obtain ⟨e, he, hexec⟩ := exec_lawful i s
  have hregs : HostRegsKept s e.complete := he.regs.complete
  exact ⟨e.complete, hexec, e.complete_engine, e.complete_done, hregs,
    (irq_of_done e.complete_done).trans hregs.doneIE, he.reports⟩

/-! ## The effects of a failed command (R252, R253) -/

/-- What a command that fails with the detail `d` may have done to the state `s` before its
completion writes: nothing, or what its execution error names. -/
inductive FailureEffect (s : State) : Instr → ErrDetail → State → Prop
  | nothing {i : Instr} {d : ErrDetail} (h : scramblesCodes i d = false) : FailureEffect s i d s
  | dst {i : Instr} {d : ErrDetail} (h : scramblesDst i d = true) :
      FailureEffect s i d s.scrambleDst
  | freq : FailureEffect s .histAccum .freqOverflow (s.setFreq (drawTable 64 s.draws)).useDraw
  | codes : FailureEffect s .tableLoad .tableOversub
      (s.setTable (drawTable 8 s.draws) (drawTable 255 s.draws) false).useDraw

theorem scramblesCodes_iff {i : Instr} {d : ErrDetail} :
    scramblesCodes i d = true ↔ i = .tableLoad ∧ d = .tableOversub := by
  unfold scramblesCodes
  split <;> simp_all

theorem not_scramblesCodes_of_ne {i : Instr} {d : ErrDetail} (hi : i ≠ .tableLoad) :
    scramblesCodes i d = false := by
  rw [← Bool.not_eq_true, scramblesCodes_iff]
  exact fun h => hi h.1

theorem not_scramblesCodes_of_scramblesDst {i : Instr} {d : ErrDetail}
    (h : scramblesDst i d = true) : scramblesCodes i d = false := by
  rw [← Bool.not_eq_true, scramblesCodes_iff]
  rintro ⟨rfl, rfl⟩
  cases h

section
variable {i : Instr} {d : ErrDetail} {s t : State} (h : FailureEffect s i d t)
include h

theorem FailureEffect.origLenKept : OrigLenKept s t := by
  cases h <;> exact ⟨rfl, rfl⟩

theorem FailureEffect.memoryKeptOutside :
    MemoryKeptOutside s t s.dstAddr.toNat s.dstCap.toNat := by
  cases h with
  | dst => exact memoryKeptOutside_scrambleDst s
  | nothing | freq | codes => exact fun _ _ => rfl

theorem FailureEffect.memoryKept (hdst : scramblesDst i d = false) : MemoryKept s t := by
  cases h with
  | dst htrue => exact absurd htrue (ne_true_of_eq_false hdst)
  | nothing | freq | codes => exact fun _ => rfl

theorem FailureEffect.freqKept (hfreq : scramblesFreq i d = false) : FreqKept s t := by
  cases h with
  | freq => cases hfreq
  | nothing | dst | codes => rfl

theorem FailureEffect.codesKept (hcodes : scramblesCodes i d = false) : CodesKept s t := by
  cases h with
  | codes => cases hcodes
  | nothing | dst | freq => exact .refl s

theorem FailureEffect.tableInvalid (hcodes : scramblesCodes i d = true) : t.tableValid = false := by
  cases h with
  | nothing hfalse => exact absurd hcodes (ne_true_of_eq_false hfalse)
  | dst hdst => exact absurd hcodes (ne_true_of_eq_false (not_scramblesCodes_of_scramblesDst hdst))
  | freq => cases hcodes
  | codes => rfl

end

/-! ## The end of a command with its effects -/

/-- If command `i` ends with an error in the state `s`, its effects are those the error names. -/
def Ended.FailsAsNamed (i : Instr) (s : State) (e : Ended) : Prop :=
  ∀ x, e.result = .error x → FailureEffect s i x.detail e.state

section
variable {i : Instr} {s t : State}

theorem Ended.failsAsNamed_succeed {r : Results} : (succeed t r).FailsAsNamed i s :=
  fun _ h => nomatch h

theorem Ended.failsAsNamed_fail {x : CmdError} (h : FailureEffect s i x.detail t) :
    (fail t x).FailsAsNamed i s := fun _ hx => Except.error.inj hx ▸ h

/-- The answer is the completion of an end that fails as named, if it fails. -/
def CompletesAsNamed (i : Instr) (s : State) (o : Host.Outcome State Fault Refusal) : Prop :=
  ∃ e : Ended, e.FailsAsNamed i s ∧ o = .next e.complete

theorem mem_of_firstFailing {cs : List Check} {e : CmdError} (h : firstFailing cs = some e) :
    (true, e) ∈ cs := by
  induction cs with
  | nil => cases h
  | cons c cs ih =>
    obtain ⟨failed, x⟩ := c
    cases failed with
    | false => exact List.mem_cons_of_mem _ (ih h)
    | true => exact Option.some.inj h ▸ List.mem_cons_self

/-- A failing check leaves the state as it is, so its error may not be one that names the codes. -/
theorem runCommand_completesAsNamed {checks : List Check} {body : State → Ended}
    (hchecks : ∀ c ∈ checks, scramblesCodes i c.2.detail = false)
    (hbody : (body s).FailsAsNamed i s) : CompletesAsNamed i s (runCommand s checks body) := by
  rcases runCommand_cases s checks body with ⟨e, he, hrun⟩ | ⟨-, hrun⟩
  · have hnothing := FailureEffect.nothing (s := s) (hchecks _ (mem_of_firstFailing he))
    exact ⟨fail s e, Ended.failsAsNamed_fail hnothing, hrun⟩
  · exact ⟨body s, hbody, hrun⟩

theorem runCommand_completesAsNamed_of_ne {checks : List Check} {body : State → Ended}
    (hi : i ≠ .tableLoad) (hbody : (body s).FailsAsNamed i s) :
    CompletesAsNamed i s (runCommand s checks body) :=
  runCommand_completesAsNamed (fun _ _ => not_scramblesCodes_of_ne hi) hbody

end

/-! ## The commands -/

section
variable (s : State)

theorem decomposeBody_failsAsNamed : (decomposeBody s).FailsAsNamed .decompose s := by
  simp only [decomposeBody]
  split
  · exact Ended.failsAsNamed_fail (.dst rfl)
  · exact Ended.failsAsNamed_succeed

theorem histAccumBody_failsAsNamed : (histAccumBody s).FailsAsNamed .histAccum s := by
  simp only [histAccumBody]
  split
  · exact Ended.failsAsNamed_fail .freq
  · exact Ended.failsAsNamed_succeed

theorem tableLoadBody_failsAsNamed : (tableLoadBody s).FailsAsNamed .tableLoad s := by
  simp only [tableLoadBody]
  split
  · exact Ended.failsAsNamed_succeed
  · exact Ended.failsAsNamed_fail .codes

theorem encodeBody_failsAsNamed : (encodeBody s).FailsAsNamed .encode s := by
  simp only [encodeBody]
  split
  · exact Ended.failsAsNamed_fail (.dst rfl)
  split
  · exact Ended.failsAsNamed_fail (.dst rfl)
  · exact Ended.failsAsNamed_succeed

/-- OUT_CAP of DECODE is found before a symbol is read, so it names no byte (R252). -/
theorem decodeBody_failsAsNamed : (decodeBody s).FailsAsNamed .decode s := by
  simp only [decodeBody]
  split
  · exact Ended.failsAsNamed_fail (.nothing rfl)
  split
  · refine Ended.failsAsNamed_fail (.dst ?_)
    rcases decodeSymbols_error ‹_› with rfl | rfl <;> rfl
  · exact Ended.failsAsNamed_succeed

theorem tableLoad_checks_keep_codes :
    ∀ c ∈ operandChecks .tableLoad s ++
      [(s.srcLen.toNat != Config.tableBytes, decompressionFailed .tableLength)],
      scramblesCodes .tableLoad c.2.detail = false := by
  simp [operandChecks, decompressionFailed, scramblesCodes]

/-- The effects of every command that fails are those its error names (R252). -/
theorem exec_completesAsNamed (i : Instr) : CompletesAsNamed i s (exec i s) := by
  cases i with
  | nop | histClear | buildTable | tableStore | hdrPack =>
    unfold exec
    exact runCommand_completesAsNamed_of_ne (by decide) Ended.failsAsNamed_succeed
  | ampMap =>
    unfold exec execAmpMap
    exact runCommand_completesAsNamed_of_ne (by decide) Ended.failsAsNamed_succeed
  | ampUnmap =>
    unfold exec execAmpUnmap
    exact runCommand_completesAsNamed_of_ne (by decide) Ended.failsAsNamed_succeed
  | decompose => exact runCommand_completesAsNamed_of_ne (by decide) (decomposeBody_failsAsNamed s)
  | histAccum => exact runCommand_completesAsNamed_of_ne (by decide) (histAccumBody_failsAsNamed s)
  | encode => exact runCommand_completesAsNamed_of_ne (by decide) (encodeBody_failsAsNamed s)
  | decode => exact runCommand_completesAsNamed_of_ne (by decide) (decodeBody_failsAsNamed s)
  | tableLoad =>
    exact runCommand_completesAsNamed (tableLoad_checks_keep_codes s) (tableLoadBody_failsAsNamed s)
  | chainCheck | hdrParse =>
    unfold exec
    refine runCommand_completesAsNamed_of_ne (by decide) ?_
    split
    · exact Ended.failsAsNamed_fail (.nothing rfl)
    · exact Ended.failsAsNamed_succeed
  | reconstruct =>
    unfold exec
    refine runCommand_completesAsNamed_of_ne (by decide) ?_
    split
    · exact Ended.failsAsNamed_fail (.nothing rfl)
    split
    · exact Ended.failsAsNamed_fail (.nothing rfl)
    · exact Ended.failsAsNamed_succeed

end

/-- The state a failed command leaves: its effects, then the completion writes. -/
theorem exec_failed {i : Instr} {s t : State} (hexec : exec i s = .next t)
    (hcode : t.errCode ≠ .none) :
    ∃ u e, FailureEffect s i e.detail u ∧ t = u.completeFailure e := by
  obtain ⟨⟨u, result⟩, hnamed, hnext⟩ := exec_completesAsNamed s i
  obtain rfl := Host.Outcome.next.inj (hexec.symm.trans hnext)
  cases result with
  | ok r => exact absurd rfl hcode
  | error x => exact ⟨u, x, hnamed x rfl, rfl⟩

/-- Settles O34: a completion with an error leaves no result and every host-written register, and
the rest is what `FailureEffect` says, which the completion writes leave alone. -/
theorem failedCommandChangesOnlyNamedState : Obligations.FailedCommandChangesOnlyNamedState := by
  intro i s t hexec hcode
  obtain ⟨t', hexec', -, -, hregs, -, hreport⟩ := everyCommandCompletes i s
  obtain rfl := Host.Outcome.next.inj (hexec.symm.trans hexec')
  have hfailed : Failed t ⟨t.errCode, t.errDetail⟩ :=
    (hreport.resolve_left fun hnone => hcode hnone.1).2
  obtain ⟨u, e, heffect, rfl⟩ := exec_failed hexec hcode
  exact ⟨hfailed, hregs, heffect.origLenKept, fun _ => heffect.memoryKeptOutside,
    heffect.memoryKept, heffect.freqKept, heffect.tableInvalid, heffect.codesKept⟩

end Sys2Proof.Machine
end

section
/-! # Platform reset (70_reset_and_hazards.md R280, R281)

A reset takes the place of whatever the engine is doing: its step reads nothing of the old state but
the draw counter and the moves still to come. -/

namespace Sys2Proof.Machine

section
variable {s : State} {ts : List Turn}

theorem step_of_reset (h : s.agenda = .reset :: ts) :
    step s = .next (platformReset { s with agenda := ts }) := by
  rw [step, h]

/-- The fields of the reset state, with the model's own carried on (assumption 13). -/
theorem platformReset_with_agenda :
    platformReset { s with agenda := ts } =
      { State.reset with bufSeed := s.draws, draws := s.draws + 1, agenda := ts } := rfl

end

/-- Settles O16: the move is a reset whether or not the engine is Busy, and the state it gives takes
only the draw counter and the moves still to come from the one before. -/
theorem platformResetAbandonsCommand : Obligations.PlatformResetAbandonsCommand := by
  intro s ts hagenda
  refine ⟨platformReset { s with agenda := ts }, step_of_reset hagenda, ?resetFields⟩
  case resetFields => rw [platformReset_with_agenda]

end Sys2Proof.Machine
end

section
/-! # WAIT (30_encoding.md R111, 60_exceptions.md R254)

A poll of an Idle block is the last one; a poll of a Busy block puts the engine's move and one more
poll on the agenda, and the engine's move leaves the block Idle. -/

namespace Sys2Proof.Machine

/-! ## One poll -/

section
variable {s : State} {ts : List Turn}

theorem hostWait_idle (hidle : s.isBusy = false) :
    hostWait s = s.answer (s.statusWord.setWidth 64) := by
  simp only [hostWait, hidle, regRead_status, Bool.false_eq_true, if_false]

theorem hostWait_busy (hbusy : s.isBusy = true) :
    hostWait s = { s.answer (s.statusWord.setWidth 64) with
      agenda := .engine :: .wait :: s.agenda } := by
  simp only [hostWait, hbusy, regRead_status, if_true]

theorem step_of_wait (h : s.agenda = .wait :: ts) :
    step s = .next (hostWait { s with agenda := ts }) := by
  rw [step, h]

end

/-! ## The engine's move between two polls -/

theorem isBusy_of_engine_idle {s : State} (h : s.engine = .idle) : s.isBusy = false := by
  rw [State.isBusy, h]

theorem exists_engine_of_isBusy {s : State} (hbusy : s.isBusy = true) :
    ∃ w, s.engine = .busy w := by
  cases hengine : s.engine with
  | idle => rw [isBusy_of_engine_idle hengine] at hbusy; cases hbusy
  | busy w => exact ⟨w, rfl⟩

/-- A Busy engine's move is the completion of a lawful end, whether or not its word is legal. -/
theorem engineStep_busy_completes {s : State} (hbusy : s.isBusy = true) :
    CompletesLawfully s (engineStep s) := by
  obtain ⟨w, hengine⟩ := exists_engine_of_isBusy hbusy
  cases hw : decodeWord w with
  | ok i => rw [engineStep_legal hengine hw]; exact exec_lawful i s
  | error x =>
    refine ⟨fail s (illegalError x), Ended.lawful_fail_self ?legal, engineStep_illegal hengine hw⟩
    case legal => cases x <;> rfl

/-- The step that completes a Busy engine leaves it Idle, and the moves after its own as they are. -/
theorem exists_step_of_engine_busy {s : State} {ts : List Turn} (hagenda : s.agenda = .engine :: ts)
    (hbusy : s.isBusy = true) : ∃ t, step s = .next t ∧ t.isBusy = false ∧ t.agenda = ts := by
  obtain ⟨e, he, hnext⟩ := engineStep_busy_completes (s := { s with agenda := ts }) hbusy
  exact ⟨e.complete, (step_of_engine hagenda).trans hnext,
    isBusy_of_engine_idle e.complete_engine, he.regs.complete.agenda⟩

/-! ## The whole WAIT -/

/-- The last poll: one step from an Idle block, which only reads STATUS. -/
theorem run_wait_idle {s : State} {ts : List Turn} (hagenda : s.agenda = .wait :: ts)
    (hidle : s.isBusy = false) :
    core.run 1 s = .next (State.answer { s with agenda := ts } (s.statusWord.setWidth 64)) := by
  have hpoll : step s = .next (State.answer { s with agenda := ts } (s.statusWord.setWidth 64)) :=
    (step_of_wait hagenda).trans (congrArg _ (hostWait_idle (s := { s with agenda := ts }) hidle))
  exact run_succ_of_step hpoll 0

/-- A poll of a Busy block and the completion after it: the block is Idle and at its last poll. -/
theorem run_wait_busy {s : State} {ts : List Turn} (hagenda : s.agenda = .wait :: ts)
    (hbusy : s.isBusy = true) :
    ∃ u, u.agenda = .wait :: ts ∧ u.isBusy = false ∧ core.run 3 s = core.run 1 u := by
  have hpoll := (step_of_wait hagenda).trans
    (congrArg _ (hostWait_busy (s := { s with agenda := ts }) hbusy))
  obtain ⟨u, hcomplete, hidle, hwait⟩ := exists_step_of_engine_busy (ts := .wait :: ts)
    (s := { State.answer { s with agenda := ts } (s.statusWord.setWidth 64) with
      agenda := .engine :: .wait :: ts }) rfl hbusy
  exact ⟨u, hwait, hidle, (run_succ_of_step hpoll 2).trans (run_succ_of_step hcomplete 1)⟩

/-- What WAIT has done when it ends, `ts` being the moves that follow it. -/
def WaitEnded (ts : List Turn) (t : State) : Prop :=
  t.agenda = ts ∧ t.isBusy = false ∧ t.reply = some (t.statusWord.setWidth 64)

/-- The read of the last poll leaves the engine and the STATUS word it answers. -/
theorem waitEnded_answer {s : State} {ts : List Turn} (hidle : s.isBusy = false) :
    WaitEnded ts (State.answer { s with agenda := ts } (s.statusWord.setWidth 64)) :=
  ⟨rfl, hidle, rfl⟩

/-- Settles O17: from an Idle block the first poll is the last, and from a Busy one the poll and the
completion lead to the poll of an Idle block. -/
theorem waitEndsWithEngineIdle : Obligations.WaitEndsWithEngineIdle := by
  intro s ts hagenda
  have hlast {u : State} (hwait : u.agenda = .wait :: ts) (hidle : u.isBusy = false) :
      ∃ t, core.run 1 u = .next t ∧ WaitEnded ts t :=
    ⟨_, run_wait_idle hwait hidle, waitEnded_answer hidle⟩
  cases hbusy : s.isBusy with
  | false => exact hlast hagenda hbusy
  | true =>
    obtain ⟨u, hwait, hidle, hrun⟩ := run_wait_busy hagenda hbusy
    obtain ⟨t, hpoll, hended⟩ := hlast hwait hidle
    exact ⟨t, hrun.trans hpoll, hended⟩

end Sys2Proof.Machine
end

section
/-! # The invariants at reset (10_state.md R59, 70_reset_and_hazards.md R280)

At reset nothing is listed, no table is valid and no command runs or has failed; the steps keep the
three invariants by `stepKeepsMemoryInvariant`, `stepKeepsTablesInvariant` and
`stepKeepsStatusInvariant`. -/

namespace Sys2Proof.Machine

theorem memoryInvariant_reset : MemoryInvariant State.reset where
  canonical := reset_buf_wf
  inside _ hc := nomatch hc

/-- TABLE_VALID is 0, so R49 asks nothing of the zero tables. -/
theorem tablesInvariant_reset : TablesInvariant State.reset := fun hvalid => nomatch hvalid

theorem statusInvariant_reset : StatusInvariant State.reset where
  lastOp := rfl
  busy _ hw := nomatch hw
  pair := rfl
  results hcode := absurd rfl hcode

/-- Settles O57, one invariant at a time. -/
theorem resetMeetsInvariants : Obligations.ResetMeetsInvariants :=
  ⟨memoryInvariant_reset, tablesInvariant_reset, statusInvariant_reset⟩

end Sys2Proof.Machine
end
